-- ==== Sys2Proof/Word.lean ====
section
/-!
DEFINITION. The word types of the block (spec/00_scope.md R6, R13, R14): all values are unsigned, bit 0 is the
least significant bit.
-/

namespace Sys2Proof

/-- A `u8`: a general register, a timer, a memory or screen cell, an immediate byte (R6, R13). -/
abbrev Byte := BitVec 8

/-- A `u16`: an instruction word, `I`, `PC`, a return address (R6, R13). -/
abbrev Word := BitVec 16

/-- A `u12`: the operand `w[11:0]` of an instruction word (R81, R82). -/
abbrev Operand := BitVec 12

/-- The number of a general register, `V0` = 0 to `VF` = 15 (R20). -/
abbrev Reg := Fin 16

/-- The opcode index, 0..34 (R31, R86). -/
abbrev OpIndex := Fin 35

end Sys2Proof
end

