-- ==== Sys2Proof/Syntax.lean ====
section
/-!
DEFINITION. The instructions: one constructor per row of spec/opcode_table.json (spec/30_encoding.md R86), with the
operand fields of spec/30_encoding.md R82.
-/

namespace Sys2Proof

/-- The 35 instructions, in the order of the opcode index (R86). -/
inductive Instr where
  /-- 0, `SYS nnn` (R141): a no-op; every unknown word is `sys 0` (R87). -/
  | sys (nnn : Operand)
  /-- 1, `CLS` (R200). -/
  | cls
  /-- 2, `RET` (R142). -/
  | ret
  /-- 3, `JP nnn` (R143). -/
  | jp (nnn : Operand)
  /-- 4, `CALL nnn` (R144). -/
  | call (nnn : Operand)
  /-- 5, `SE Vx, kk` (R161). -/
  | seImm (x : Reg) (kk : Byte)
  /-- 6, `SNE Vx, kk` (R162). -/
  | sneImm (x : Reg) (kk : Byte)
  /-- 7, `SE Vx, Vy` (R163). -/
  | seReg (x y : Reg)
  /-- 8, `LD Vx, kk` (R171). -/
  | ldImm (x : Reg) (kk : Byte)
  /-- 9, `ADD Vx, kk` (R172). -/
  | addImm (x : Reg) (kk : Byte)
  /-- 10, `LD Vx, Vy` (R173). -/
  | ldReg (x y : Reg)
  /-- 11, `OR Vx, Vy` (R174). -/
  | or (x y : Reg)
  /-- 12, `AND Vx, Vy` (R175). -/
  | and (x y : Reg)
  /-- 13, `XOR Vx, Vy` (R176). -/
  | xor (x y : Reg)
  /-- 14, `ADD Vx, Vy` (R177). -/
  | addReg (x y : Reg)
  /-- 15, `SUB Vx, Vy` (R178). -/
  | sub (x y : Reg)
  /-- 16, `SHR Vx {, Vy}` (R179); the y field is encoded and not read. -/
  | shr (x y : Reg)
  /-- 17, `SUBN Vx, Vy` (R180). -/
  | subn (x y : Reg)
  /-- 18, `SHL Vx {, Vy}` (R181); the y field is encoded and not read. -/
  | shl (x y : Reg)
  /-- 19, `SNE Vx, Vy` (R164). -/
  | sneReg (x y : Reg)
  /-- 20, `LD I, nnn` (R241). -/
  | ldI (nnn : Operand)
  /-- 21, `JP V0, nnn` (R145). -/
  | jpV0 (nnn : Operand)
  /-- 22, `RND Vx, kk` (R182). -/
  | rnd (x : Reg) (kk : Byte)
  /-- 23, `DRW Vx, Vy, n` (R203); `n` is the count of rows, 0..15. -/
  | drw (x y : Reg) (n : Fin 16)
  /-- 24, `SKP Vx` (R220). -/
  | skp (x : Reg)
  /-- 25, `SKNP Vx` (R221). -/
  | sknp (x : Reg)
  /-- 26, `LD Vx, DT` (R225). -/
  | ldVxDt (x : Reg)
  /-- 27, `LD Vx, K` (R223). -/
  | ldVxK (x : Reg)
  /-- 28, `LD DT, Vx` (R226). -/
  | ldDtVx (x : Reg)
  /-- 29, `LD ST, Vx` (R227). -/
  | ldStVx (x : Reg)
  /-- 30, `ADD I, Vx` (R242). -/
  | addI (x : Reg)
  /-- 31, `LD F, Vx` (R244). -/
  | ldF (x : Reg)
  /-- 32, `LD B, Vx` (R245). -/
  | ldB (x : Reg)
  /-- 33, `LD [I], Vx` (R246). -/
  | ldMemVx (x : Reg)
  /-- 34, `LD Vx, [I]` (R247). -/
  | ldVxMem (x : Reg)
  deriving DecidableEq, Repr

end Sys2Proof
end

