-- ==== Sys2Proof/WellFormed.lean ====
section
/-!
DEFINITION. Which terms of `Instr` some word of the machine stands for. The types of the operand fields bound every
register number, immediate and count; what is left is spec/30_encoding.md R84 and R89: a word 0nnn whose last byte is
0xE0 or 0xEE is CLS or RET, so no word stands for `SYS nnn` with such an operand.
-/

namespace Sys2Proof

/-- The operand of SYS does not end in the byte that selects CLS (R89). -/
def sysIsNotCls (nnn : Operand) : Bool := nnn.extractLsb' 0 8 != 0xE0#8

/-- The operand of SYS does not end in the byte that selects RET (R89). -/
def sysIsNotRet (nnn : Operand) : Bool := nnn.extractLsb' 0 8 != 0xEE#8

/-- The check on an instruction, one arm per constructor. -/
def Instr.wellFormed : Instr → Bool
  | .sys nnn => sysIsNotCls nnn && sysIsNotRet nnn
  | .cls => true
  | .ret => true
  | .jp _ => true
  | .call _ => true
  | .seImm _ _ => true
  | .sneImm _ _ => true
  | .seReg _ _ => true
  | .ldImm _ _ => true
  | .addImm _ _ => true
  | .ldReg _ _ => true
  | .or _ _ => true
  | .and _ _ => true
  | .xor _ _ => true
  | .addReg _ _ => true
  | .sub _ _ => true
  | .shr _ _ => true
  | .subn _ _ => true
  | .shl _ _ => true
  | .sneReg _ _ => true
  | .ldI _ => true
  | .jpV0 _ => true
  | .rnd _ _ => true
  | .drw _ _ _ => true
  | .skp _ => true
  | .sknp _ => true
  | .ldVxDt _ => true
  | .ldVxK _ => true
  | .ldDtVx _ => true
  | .ldStVx _ => true
  | .addI _ => true
  | .ldF _ => true
  | .ldB _ => true
  | .ldMemVx _ => true
  | .ldVxMem _ => true

end Sys2Proof
end

