-- ==== Sys2Proof/Decode.lean ====
section
/-!
DEFINITION. The decoder of spec/30_encoding.md R80 to R89, total on every word and on any bytes, and the encoder of
R93, written from the same table (R86). Every encoding other than those of CLS and LD Vx, kk is conventional (log 12).
-/

namespace Sys2Proof

/-! ## The fields of a word (R81, R82) -/

/-- The family nibble `w[15:12]` (R81). -/
def familyOf (w : Word) : BitVec 4 := w.extractLsb' 12 4

/-- The operand `w[11:0]`, which is also the field nnn (R81, R82). -/
def operandOf (w : Word) : Operand := w.extractLsb' 0 12

/-- The field x, `w[11:8]` (R82). -/
def xOf (w : Word) : Reg := (w.extractLsb' 8 4).toFin

/-- The field y, `w[7:4]` (R82). -/
def yOf (w : Word) : Reg := (w.extractLsb' 4 4).toFin

/-- The field kk, which is also the selector sub8, `w[7:0]` (R82). -/
def kkOf (w : Word) : Byte := w.extractLsb' 0 8

/-- The field n, which is also the selector sub, `w[3:0]` (R82). -/
def nOf (w : Word) : BitVec 4 := w.extractLsb' 0 4

/-! ## Decoding a word (R84, R87) -/

/-- Family 0x0: only the last byte is looked at (R84, R89). -/
def decodeFamily0 (w : Word) : Instr :=
  if kkOf w = 0xE0#8 then .cls else if kkOf w = 0xEE#8 then .ret else .sys (operandOf w)

/-- Family 0x8, by the last nibble (R84). -/
def decodeFamily8 (w : Word) : Option Instr :=
  match (nOf w).toNat with
  | 0x0 => some (.ldReg (xOf w) (yOf w))
  | 0x1 => some (.or (xOf w) (yOf w))
  | 0x2 => some (.and (xOf w) (yOf w))
  | 0x3 => some (.xor (xOf w) (yOf w))
  | 0x4 => some (.addReg (xOf w) (yOf w))
  | 0x5 => some (.sub (xOf w) (yOf w))
  | 0x6 => some (.shr (xOf w) (yOf w))
  | 0x7 => some (.subn (xOf w) (yOf w))
  | 0xE => some (.shl (xOf w) (yOf w))
  | _ => none

/-- Family 0xE, by the last byte (R84). -/
def decodeFamilyE (w : Word) : Option Instr :=
  if kkOf w = 0x9E#8 then some (.skp (xOf w))
  else if kkOf w = 0xA1#8 then some (.sknp (xOf w))
  else none

/-- Family 0xF, by the last byte (R84). -/
def decodeFamilyF (w : Word) : Option Instr :=
  if kkOf w = 0x07#8 then some (.ldVxDt (xOf w))
  else if kkOf w = 0x0A#8 then some (.ldVxK (xOf w))
  else if kkOf w = 0x15#8 then some (.ldDtVx (xOf w))
  else if kkOf w = 0x18#8 then some (.ldStVx (xOf w))
  else if kkOf w = 0x1E#8 then some (.addI (xOf w))
  else if kkOf w = 0x29#8 then some (.ldF (xOf w))
  else if kkOf w = 0x33#8 then some (.ldB (xOf w))
  else if kkOf w = 0x55#8 then some (.ldMemVx (xOf w))
  else if kkOf w = 0x65#8 then some (.ldVxMem (xOf w))
  else none

/-- The known form of a word, or none for an unknown word (R84, R87, R88). -/
def decodeKnown (w : Word) : Option Instr :=
  match (familyOf w).toNat with
  | 0x0 => some (decodeFamily0 w)
  | 0x1 => some (.jp (operandOf w))
  | 0x2 => some (.call (operandOf w))
  | 0x3 => some (.seImm (xOf w) (kkOf w))
  | 0x4 => some (.sneImm (xOf w) (kkOf w))
  | 0x5 => if nOf w = 0x0#4 then some (.seReg (xOf w) (yOf w)) else none
  | 0x6 => some (.ldImm (xOf w) (kkOf w))
  | 0x7 => some (.addImm (xOf w) (kkOf w))
  | 0x8 => decodeFamily8 w
  | 0x9 => if nOf w = 0x0#4 then some (.sneReg (xOf w) (yOf w)) else none
  | 0xA => some (.ldI (operandOf w))
  | 0xB => some (.jpV0 (operandOf w))
  | 0xC => some (.rnd (xOf w) (kkOf w))
  | 0xD => some (.drw (xOf w) (yOf w) (nOf w).toFin)
  | 0xE => decodeFamilyE w
  | _ => decodeFamilyF w

/-- The instruction a word runs: an unknown word runs as SYS with operand 0 (R87). -/
def decodeWord (w : Word) : Instr := (decodeKnown w).getD (.sys 0)

/-- The opcode index of an instruction (R86). -/
def Instr.index : Instr → OpIndex
  | .sys _ => 0
  | .cls => 1
  | .ret => 2
  | .jp _ => 3
  | .call _ => 4
  | .seImm _ _ => 5
  | .sneImm _ _ => 6
  | .seReg _ _ => 7
  | .ldImm _ _ => 8
  | .addImm _ _ => 9
  | .ldReg _ _ => 10
  | .or _ _ => 11
  | .and _ _ => 12
  | .xor _ _ => 13
  | .addReg _ _ => 14
  | .sub _ _ => 15
  | .shr _ _ => 16
  | .subn _ _ => 17
  | .shl _ _ => 18
  | .sneReg _ _ => 19
  | .ldI _ => 20
  | .jpV0 _ => 21
  | .rnd _ _ => 22
  | .drw _ _ _ => 23
  | .skp _ => 24
  | .sknp _ => 25
  | .ldVxDt _ => 26
  | .ldVxK _ => 27
  | .ldDtVx _ => 28
  | .ldStVx _ => 29
  | .addI _ => 30
  | .ldF _ => 31
  | .ldB _ => 32
  | .ldMemVx _ => 33
  | .ldVxMem _ => 34

/-- `decode(w)` of R84: the opcode index and the 12-bit operand, (0, 0) for an unknown word. -/
def decodePair (w : Word) : OpIndex × Operand :=
  match decodeKnown w with
  | some i => (i.index, operandOf w)
  | none => (0, 0#12)

/-! ## Decoding bytes (R56, R80) -/

/-- Why a list of bytes holds no instruction. -/
inductive DecodeError where
  /-- Fewer than the two bytes of a word. No word is itself an error (R87). -/
  | truncated
  deriving DecidableEq, Repr

/-- The word of two bytes, the first the high byte (R56). -/
def wordOfBytes (hi lo : Byte) : Word := hi ++ lo

/-- Decoding of any bytes: the first instruction and the bytes after it. -/
def decode : List Byte → Except DecodeError (Instr × List Byte)
  | hi :: lo :: rest => .ok (decodeWord (wordOfBytes hi lo), rest)
  | _ => .error .truncated

/-! ## Encoding (R93): the match value with the operand fields in their places -/

/-- The four bits of a register number or of a row count. -/
def nibbleOf (x : Fin 16) : BitVec 4 := BitVec.ofFin x

/-- The word `Fnnn` (R86). -/
def wordNnn (f : BitVec 4) (nnn : Operand) : Word := f ++ nnn

/-- The word `Fxkk` (R86); also the word of a form selected by its last byte. -/
def wordXkk (f : BitVec 4) (x : Reg) (kk : Byte) : Word := f ++ (nibbleOf x ++ kk)

/-- The word `Fxyn` (R86); also the word of a form selected by its last nibble. -/
def wordXyn (f : BitVec 4) (x y : Reg) (n : BitVec 4) : Word := f ++ (nibbleOf x ++ (nibbleOf y ++ n))

/-- The word of an instruction (R86, R93). CLS and RET are written with second nibble 0. -/
def encodeWord : Instr → Word
  | .sys nnn => wordNnn 0x0#4 nnn
  | .cls => 0x00E0#16
  | .ret => 0x00EE#16
  | .jp nnn => wordNnn 0x1#4 nnn
  | .call nnn => wordNnn 0x2#4 nnn
  | .seImm x kk => wordXkk 0x3#4 x kk
  | .sneImm x kk => wordXkk 0x4#4 x kk
  | .seReg x y => wordXyn 0x5#4 x y 0x0#4
  | .ldImm x kk => wordXkk 0x6#4 x kk
  | .addImm x kk => wordXkk 0x7#4 x kk
  | .ldReg x y => wordXyn 0x8#4 x y 0x0#4
  | .or x y => wordXyn 0x8#4 x y 0x1#4
  | .and x y => wordXyn 0x8#4 x y 0x2#4
  | .xor x y => wordXyn 0x8#4 x y 0x3#4
  | .addReg x y => wordXyn 0x8#4 x y 0x4#4
  | .sub x y => wordXyn 0x8#4 x y 0x5#4
  | .shr x y => wordXyn 0x8#4 x y 0x6#4
  | .subn x y => wordXyn 0x8#4 x y 0x7#4
  | .shl x y => wordXyn 0x8#4 x y 0xE#4
  | .sneReg x y => wordXyn 0x9#4 x y 0x0#4
  | .ldI nnn => wordNnn 0xA#4 nnn
  | .jpV0 nnn => wordNnn 0xB#4 nnn
  | .rnd x kk => wordXkk 0xC#4 x kk
  | .drw x y n => wordXyn 0xD#4 x y (nibbleOf n)
  | .skp x => wordXkk 0xE#4 x 0x9E#8
  | .sknp x => wordXkk 0xE#4 x 0xA1#8
  | .ldVxDt x => wordXkk 0xF#4 x 0x07#8
  | .ldVxK x => wordXkk 0xF#4 x 0x0A#8
  | .ldDtVx x => wordXkk 0xF#4 x 0x15#8
  | .ldStVx x => wordXkk 0xF#4 x 0x18#8
  | .addI x => wordXkk 0xF#4 x 0x1E#8
  | .ldF x => wordXkk 0xF#4 x 0x29#8
  | .ldB x => wordXkk 0xF#4 x 0x33#8
  | .ldMemVx x => wordXkk 0xF#4 x 0x55#8
  | .ldVxMem x => wordXkk 0xF#4 x 0x65#8

/-- The high byte of a word, the one stored first (R56). -/
def highByte (w : Word) : Byte := w.extractLsb' 8 8

/-- The low byte of a word, the one stored second (R56). -/
def lowByte (w : Word) : Byte := w.extractLsb' 0 8

/-- The bytes of an instruction in memory order (R56, R93). -/
def encode (i : Instr) : List Byte := [highByte (encodeWord i), lowByte (encodeWord i)]

/-! ## The opcode table (R86): mask and match of every row, in the order in which they are tested -/

/-- A row of the table of R86. -/
structure OpcodeRow where
  index : OpIndex
  mask : Word
  value : Word
  deriving DecidableEq, Repr

/-- The rows of families 0x0 to 0x7; CLS and RET are tested before SYS (R86). -/
def opcodeRowsLow : List OpcodeRow :=
  [⟨1, 0xF0FF, 0x00E0⟩, ⟨2, 0xF0FF, 0x00EE⟩, ⟨0, 0xF000, 0x0000⟩, ⟨3, 0xF000, 0x1000⟩, ⟨4, 0xF000, 0x2000⟩,
   ⟨5, 0xF000, 0x3000⟩, ⟨6, 0xF000, 0x4000⟩, ⟨7, 0xF00F, 0x5000⟩, ⟨8, 0xF000, 0x6000⟩, ⟨9, 0xF000, 0x7000⟩]

/-- The rows of families 0x8 and 0x9 (R86). -/
def opcodeRowsMiddle : List OpcodeRow :=
  [⟨10, 0xF00F, 0x8000⟩, ⟨11, 0xF00F, 0x8001⟩, ⟨12, 0xF00F, 0x8002⟩, ⟨13, 0xF00F, 0x8003⟩, ⟨14, 0xF00F, 0x8004⟩,
   ⟨15, 0xF00F, 0x8005⟩, ⟨16, 0xF00F, 0x8006⟩, ⟨17, 0xF00F, 0x8007⟩, ⟨18, 0xF00F, 0x800E⟩, ⟨19, 0xF00F, 0x9000⟩]

/-- The rows of families 0xA to 0xF (R86). -/
def opcodeRowsHigh : List OpcodeRow :=
  [⟨20, 0xF000, 0xA000⟩, ⟨21, 0xF000, 0xB000⟩, ⟨22, 0xF000, 0xC000⟩, ⟨23, 0xF000, 0xD000⟩, ⟨24, 0xF0FF, 0xE09E⟩,
   ⟨25, 0xF0FF, 0xE0A1⟩, ⟨26, 0xF0FF, 0xF007⟩, ⟨27, 0xF0FF, 0xF00A⟩, ⟨28, 0xF0FF, 0xF015⟩, ⟨29, 0xF0FF, 0xF018⟩,
   ⟨30, 0xF0FF, 0xF01E⟩, ⟨31, 0xF0FF, 0xF029⟩, ⟨32, 0xF0FF, 0xF033⟩, ⟨33, 0xF0FF, 0xF055⟩, ⟨34, 0xF0FF, 0xF065⟩]

/-- The table of R86. -/
def opcodeRows : List OpcodeRow := opcodeRowsLow ++ opcodeRowsMiddle ++ opcodeRowsHigh

/-- The row of a word: the first one with `(w & mask) = match` (R86); none for an unknown word. -/
def rowOf (w : Word) : Option OpcodeRow := opcodeRows.find? fun r => w &&& r.mask == r.value

/-! ## The host's reading of a table word -/

/-- The word of the low `nbits` bits of `w`, every bit above them 0. -/
def tableWord (nbits w : Nat) : Word := BitVec.ofNat 16 (w % 2 ^ nbits)

/-- The instruction the decoder reads from a word of the opcode table, its bytes laid out high byte first (R56). -/
def decodeTableWord (nbits w : Nat) : Option Instr :=
  match decode [highByte (tableWord nbits w), lowByte (tableWord nbits w)] with
  | .ok (i, _) => some i
  | .error _ => none

end Sys2Proof
end

