-- ==== Sys2Proof/Config.lean ====
section
/-!
DEFINITION. The fixed parameters of the block (spec/00_scope.md R6) and the free values of a step
(spec/00_scope.md R7): the draws `tdec`, `rnd` and `kslot`, of which nothing is known.
-/

namespace Sys2Proof.Config

/-- MEM_SIZE: addresses 0x000..0xFFF (R6, R50). -/
def memSize : Nat := 4096

/-- FONT_SIZE: 16 glyphs of 5 bytes, from address 0 (R6, R53). -/
def fontSize : Nat := 80

/-- GLYPH_BYTES (R6, R54). -/
def glyphBytes : Nat := 5

/-- PROG_BASE, which is also PC_RESET (R6, R37). -/
def progBase : Nat := 0x200

/-- ROM_MAX (R6, R293). -/
def romMax : Nat := 3584

/-- SCREEN_W (R6). -/
def screenW : Nat := 64

/-- SCREEN_H (R6). -/
def screenH : Nat := 32

/-- SCREEN_CELLS (R6, R29). -/
def screenCells : Nat := 2048

/-- FLAG_REG: VF is register 15 (R6, R21). -/
def flagReg : Reg := 15

/-- The type of the configuration parameter FONT: 80 bytes (R7, R53). Its default value is
`Sys2Proof.Machine.defaultFont`. -/
abbrev FontImage := Vector Byte 80

/-- FREE VALUE (log 2): `tdec`, how many decrements the timers take in a step. The source's formula leaves the
rounding open, so the spec admits every natural number in every step (R7, R121; D22). -/
opaque freeDecay : Nat → Nat

/-- FREE VALUE (log 3): `rnd`, the byte that RND combines with its mask: any byte, under no law (R7, R182; D23). -/
opaque freeRandom : Nat → Byte

/-- FREE VALUE (log 4): `kslot`, the slot that LD Vx, K reports when several are pressed: any pressed slot
(R7, R223; D18). -/
opaque freeSlot : Nat → Fin 16

end Sys2Proof.Config
end

