-- ==== Sys2Proof/Machine/Font.lean ====
section
/-!
DEFINITION. The default value of the configuration parameter FONT (spec/20_memory.md R53): the conventional CHIP-8
font. PRESUMED by the spec itself (93_implementation_defined.md G1, 92_eei_decisions.md D24; log 1): the source does
not give the bytes, so a claim that reads them names `font` as a premise.
-/

namespace Sys2Proof.Machine

/-- The glyphs of the digits 0 to 7 (R53). -/
def fontGlyphsLow : List Byte :=
  [0xF0, 0x90, 0x90, 0x90, 0xF0] ++ [0x20, 0x60, 0x20, 0x20, 0x70] ++
  [0xF0, 0x10, 0xF0, 0x80, 0xF0] ++ [0xF0, 0x10, 0xF0, 0x10, 0xF0] ++
  [0x90, 0x90, 0xF0, 0x10, 0x10] ++ [0xF0, 0x80, 0xF0, 0x10, 0xF0] ++
  [0xF0, 0x80, 0xF0, 0x90, 0xF0] ++ [0xF0, 0x10, 0x20, 0x40, 0x40]

/-- The glyphs of the digits 8 to F (R53). -/
def fontGlyphsHigh : List Byte :=
  [0xF0, 0x90, 0xF0, 0x90, 0xF0] ++ [0xF0, 0x90, 0xF0, 0x10, 0xF0] ++
  [0xF0, 0x90, 0xF0, 0x90, 0x90] ++ [0xE0, 0x90, 0xE0, 0x90, 0xE0] ++
  [0xF0, 0x80, 0x80, 0x80, 0xF0] ++ [0xE0, 0x90, 0x90, 0x90, 0xE0] ++
  [0xF0, 0x80, 0xF0, 0x80, 0xF0] ++ [0xF0, 0x80, 0xF0, 0x80, 0x80]

/-- The default FONT: glyph of hex digit d at bytes 5 d to 5 d + 4 (R53, R54). -/
def defaultFont : Config.FontImage := ⟨(fontGlyphsLow ++ fontGlyphsHigh).toArray, rfl⟩

end Sys2Proof.Machine
end

