-- ==== Sys2Proof/Machine/State.lean ====
section
/-!
DEFINITION. The state of the block (spec/10_state.md R20 to R37), the reasons a step can stop, and the state after
reset. Plain data only.
-/

namespace Sys2Proof.Machine

/-- The spec's fault reasons (spec/60_exceptions.md R264). A step that raises one stops; the original software, which
checks nothing, may go on there, so each is SAFE: no claim about such a run can be proved (R262, logs 8 and 9). -/
inductive Fault where
  /-- An access at an address >= 4096, raised by a fetch, DRW, LD B, LD [I] and LD Vx, [I]; `addr` is the first such
  address (R60). Safe. -/
  | memOutOfRange (addr : Nat)
  /-- CALL when (SP + 1) mod 256 >= 16; `sp` is SP before the CALL (R144). Safe. -/
  | stackOverflow (sp : Byte)
  /-- RET when SP >= 16 (R142). Safe. -/
  | stackOutOfRange (sp : Byte)
  /-- SKP and SKNP when V[x] >= 16 (R220, R221). Safe. -/
  | keyOutOfRange (k : Byte)
  deriving DecidableEq, Repr

/-- The reasons a request has no meaning. -/
inductive Refusal where
  /-- An instruction that the model gives no meaning yet, raised by `exec` alone. Safe. No arm uses it. -/
  | notModelled (mnemonic : String)
  /-- The port `pixel` outside 0 <= x < 64, 0 <= y < 32 (spec/40_dispatch_and_cycle.md R125). Safe. -/
  | pixelOutside (x y : Nat)
  /-- The debug port's instruction read at an address above 0xFFE (spec/60_exceptions.md R284). Safe. -/
  | instructionReadOutside (addr : Nat)
  deriving DecidableEq, Repr

/-- The draws of one step (spec/00_scope.md R7, R17). -/
structure Draw where
  /-- How many decrements the timers take in the step. -/
  tdec : Nat
  /-- The byte RND combines with its mask. -/
  rnd : Byte
  /-- The slot LD Vx, K reports, if it is a pressed one. -/
  kslot : Fin 16
  deriving DecidableEq, Repr

/-- The state. The fields up to `fault` are the spec's (R20 to R36); the last five are the model's own: configuration,
inputs of a step and draws (R7, R30, R110), which exec and step can be given in no other way (logs 1 to 6). -/
structure State where
  /-- V0 to VF (R20). -/
  v : Vector Byte 16
  /-- The address register I (R23). -/
  i : Word
  /-- The program counter (R24). -/
  pc : Word
  /-- The stack pointer (R25). -/
  sp : Byte
  /-- The stack of return addresses, apart from memory (R26). -/
  stack : Vector Word 16
  /-- The delay timer (R27). -/
  dt : Byte
  /-- The sound timer (R28). -/
  st : Byte
  /-- Memory (R36, R50): the cells that differ from their content after `init`, addresses rising (log 23). -/
  mem : List Host.Cell
  /-- The screen buffer (R29): the cells that are not 0, cell numbers rising (log 23). -/
  screen : List Host.Cell
  /-- The opcode index of the most recently decoded instruction (R31). -/
  decOp : OpIndex
  /-- The operand of the most recently decoded instruction (R31). -/
  decOperand : Operand
  /-- The address of the most recently executed instruction (R32). -/
  prevPc : Word
  /-- The byte count of the loaded image, 0 for none (R33). -/
  romSize : Nat
  /-- The sticky fault (R34). -/
  fault : Option Fault
  /-- MODEL'S OWN: the configuration parameter FONT; nothing writes it (R7, R53; log 1). -/
  font : Config.FontImage
  /-- MODEL'S OWN: the input keys[0x0..0xF], true for pressed (R30, R110; log 6). -/
  keys : Vector Bool 16
  /-- MODEL'S OWN: the input freeze (R110; log 6). -/
  freeze : Bool
  /-- MODEL'S OWN: draws fixed for the coming steps, the next one first (R7; log 5). -/
  draws : List Draw
  /-- MODEL'S OWN: the counter the opaque draws are applied to when `draws` is empty (R7; log 5). -/
  drawCount : Nat
  deriving DecidableEq, Repr

/-- The state after `init`, and so at construction (spec/10_state.md R37; spec/70_reset_and_hazards.md R290, R291).
The values of the last five fields are the model's (logs 1, 5, 6). -/
def State.reset : State where
  v := Vector.replicate 16 0x00#8
  i := 0x0000#16
  pc := BitVec.ofNat 16 Config.progBase
  sp := 0x00#8
  stack := Vector.replicate 16 0x0000#16
  dt := 0x00#8
  st := 0x00#8
  mem := []
  screen := []
  decOp := 0
  decOperand := 0x000#12
  prevPc := BitVec.ofNat 16 Config.progBase
  romSize := 0
  fault := none
  font := defaultFont
  keys := Vector.replicate 16 false
  freeze := false
  draws := []
  drawCount := 0

end Sys2Proof.Machine
end

