-- ==== Sys2Proof/Machine/Ops.lean ====
section
/-!
DEFINITION. The operations over the state that the meanings share: registers, sparse cells, memory and screen, the
program counter, the timers, the draws, fetching, and the fault (spec/10_state.md, spec/20_memory.md,
spec/40_dispatch_and_cycle.md R110 to R118, spec/60_exceptions.md R262 to R265).
-/

namespace Sys2Proof.Machine

/-- The outcome of a meaning. -/
abbrev Result := Host.Outcome State Fault Refusal

/-! ## One update per field -/

/-- `V[x] <- b` (R16, R20). -/
def State.setReg (s : State) (x : Reg) (b : Byte) : State := { s with v := s.v.set x b }

/-- Replace the whole register file (LD Vx, [I], R247). -/
def State.setRegs (s : State) (v : Vector Byte 16) : State := { s with v := v }

/-- `I <- a` (R16, R23). -/
def State.setI (s : State) (a : Word) : State := { s with i := a }

/-- `PC <- a` (R16, R24). -/
def State.setPc (s : State) (a : Word) : State := { s with pc := a }

/-- `SP <- b` (R16, R25). -/
def State.setSp (s : State) (b : Byte) : State := { s with sp := b }

/-- `stack[k] <- a`, for k < 16 (R16, R26). -/
def State.setSlot (s : State) (k : Nat) (a : Word) : State := { s with stack := s.stack.setIfInBounds k a }

/-- `DT <- b` (R27). -/
def State.setDt (s : State) (b : Byte) : State := { s with dt := b }

/-- `ST <- b` (R28). -/
def State.setSt (s : State) (b : Byte) : State := { s with st := b }

/-- Replace the stored cells of memory. -/
def State.setMem (s : State) (m : List Host.Cell) : State := { s with mem := m }

/-- Replace the stored cells of the screen. -/
def State.setScreen (s : State) (c : List Host.Cell) : State := { s with screen := c }

/-- `dec_op <- d.1; dec_operand <- d.2` (R31, R113). -/
def State.setDecoded (s : State) (d : OpIndex × Operand) : State := { s with decOp := d.1, decOperand := d.2 }

/-- `prev_pc <- a` (R32, R117). -/
def State.setPrevPc (s : State) (a : Word) : State := { s with prevPc := a }

/-- `rom_size <- n` (R33, R295). -/
def State.setRomSize (s : State) (n : Nat) : State := { s with romSize := n }

/-- `fault <- f` (R34, R263). -/
def State.setFault (s : State) (f : Option Fault) : State := { s with fault := f }

/-- The inputs that the host gives with a `cycle` call (R30, R119). -/
def State.setInputs (s : State) (keys : Vector Bool 16) (freeze : Bool) : State :=
  { s with keys := keys, freeze := freeze }

/-- The draws of a step are used up: the next step has its own (R7, R119; log 5). -/
def State.dropDraw (s : State) : State := { s with draws := s.draws.tail, drawCount := s.drawCount + 1 }

/-! ## Registers (R20, R21) -/

/-- `V[x]` (R16, R20). -/
def State.reg (s : State) (x : Reg) : Byte := s.v[x]

/-- `V[0xF] <- b` (R21). -/
def State.setFlag (s : State) (b : Byte) : State := s.setReg Config.flagReg b

/-- Write a result, then a flag: the flag is written last, so for x = F it survives (R22, R170; D12). -/
def State.setResultAndFlag (s : State) (x : Reg) (result flag : Byte) : State := (s.setReg x result).setFlag flag

/-! ## Sparse cells: the canonical form of memory and of the screen (log 23) -/

/-- The value of cell `a`: the stored one, else what an unlisted cell reads as. -/
def Cells.read (unlisted : Nat → Byte) : List Host.Cell → Nat → Byte
  | [], a => unlisted a
  | (k, b) :: rest, a => if a = k then b else Cells.read unlisted rest a

/-- Store a value under `a`, numbers rising. -/
def Cells.insert : List Host.Cell → Nat → Byte → List Host.Cell
  | [], a, b => [(a, b)]
  | (k, c) :: rest, a, b =>
    if a < k then (a, b) :: (k, c) :: rest
    else if a = k then (a, b) :: rest
    else (k, c) :: Cells.insert rest a b

/-- Remove the entry of `a`. -/
def Cells.erase : List Host.Cell → Nat → List Host.Cell
  | [], _ => []
  | (k, c) :: rest, a => if a = k then Cells.erase rest a else (k, c) :: Cells.erase rest a

/-- Write a cell; writing what an unlisted cell reads as removes the entry. -/
def Cells.write (unlisted : Nat → Byte) (cells : List Host.Cell) (a : Nat) (b : Byte) : List Host.Cell :=
  if b = unlisted a then Cells.erase cells a else Cells.insert cells a b

/-- Every number is at least `low`, numbers strictly rise, and all are below `bound`. -/
def Cells.rising (bound : Nat) : Nat → List Host.Cell → Bool
  | _, [] => true
  | low, (k, _) :: rest => decide (low ≤ k) && decide (k < bound) && Cells.rising bound (k + 1) rest

/-- No entry equals what an unlisted cell reads as. -/
def Cells.informative (unlisted : Nat → Byte) (cells : List Host.Cell) : Bool :=
  cells.all fun c => c.2 != unlisted c.1

/-- The canonical form. -/
def Cells.wf (unlisted : Nat → Byte) (bound : Nat) (cells : List Host.Cell) : Bool :=
  Cells.rising bound 0 cells && Cells.informative unlisted cells

/-! ## Memory (R50, R51, R60) -/

/-- What an unlisted address of memory reads as: its content after `init`, FONT at 0x000..0x04F and 0 elsewhere
(R37, R51). -/
def Memory.unlisted (font : Config.FontImage) (a : Nat) : Byte := (font[a]?).getD 0x00#8

/-- Memory is in canonical form, with every address inside the address space. -/
def Memory.wf (font : Config.FontImage) (mem : List Host.Cell) : Bool :=
  Cells.wf (Memory.unlisted font) Config.memSize mem

/-- `MemRead(a, 1)` (R16), for a < 4096. -/
def State.readByte (s : State) (a : Nat) : Byte := Cells.read (Memory.unlisted s.font) s.mem a

/-- `MemWrite(a, 1, b)` (R16), for a < 4096. -/
def State.writeByte (s : State) (a : Nat) (b : Byte) : State :=
  s.setMem (Cells.write (Memory.unlisted s.font) s.mem a b)

/-- Bytes written one by one at ascending addresses (R57). -/
def State.writeBytes : State → Nat → List Byte → State
  | s, _, [] => s
  | s, a, b :: rest => (s.writeByte a b).writeBytes (a + 1) rest

/-- Bytes read one by one at ascending addresses (R57). -/
def State.readBytes (s : State) : Nat → Nat → List Byte
  | _, 0 => []
  | a, n + 1 => s.readByte a :: s.readBytes (a + 1) n

/-- The check of an access to `count` bytes from `first`: the fault of R60, whose address is the first one >= 4096
that the access would touch (R240). -/
def accessFault (first count : Nat) : Option Fault :=
  if 1 ≤ count ∧ Config.memSize ≤ first + count - 1 then some (.memOutOfRange (max first Config.memSize)) else none

/-! ## The screen (R29) -/

/-- An unlisted cell of the screen is 0 (R37). -/
def Screen.unlisted (_ : Nat) : Byte := 0x00#8

/-- `screen[j]` of a screen. -/
def Screen.read (screen : List Host.Cell) (j : Nat) : Byte := Cells.read Screen.unlisted screen j

/-- `screen[j] <- b`. -/
def Screen.write (screen : List Host.Cell) (j : Nat) (b : Byte) : List Host.Cell :=
  Cells.write Screen.unlisted screen j b

/-- The screen is in canonical form, with every cell number inside the buffer. -/
def Screen.wf (screen : List Host.Cell) : Bool := Cells.wf Screen.unlisted Config.screenCells screen

/-- `screen[j]` (R16), for j < 2048. -/
def State.cell (s : State) (j : Nat) : Byte := Screen.read s.screen j

/-! ## The stack and the keys -/

/-- `stack[k]`, none for k >= 16 (R26). -/
def State.slot? (s : State) (k : Nat) : Option Word := s.stack[k]?

/-- `keys[k]`, none for k >= 16 (R30). -/
def State.key? (s : State) (k : Nat) : Option Bool := s.keys[k]?

/-! ## The program counter (R24, R115, R116) -/

/-- A transfer of control to `t` during execute: pre-subtract 2 (R115). -/
def State.jump (s : State) (t : Word) : State := s.setPc (t - 2)

/-- A skip during execute, when the condition holds (R115, R160). -/
def State.skipIf (s : State) (c : Bool) : State := if c then s.setPc (s.pc + 2) else s

/-- LD Vx, K without a pressed key: the same instruction runs again in the next step (R115, R223). -/
def State.repeatInstruction (s : State) : State := s.setPc (s.pc - 2)

/-- The advance after execute (R116). -/
def State.advance (s : State) : State := s.setPc (s.pc + 2)

/-! ## The draws of a step (R7, R17; logs 2 to 5) -/

/-- The draws of the step that runs in `s`: those fixed for it, else free values. -/
def State.draw (s : State) : Draw :=
  match s.draws with
  | d :: _ => d
  | [] => ⟨Config.freeDecay s.drawCount, Config.freeRandom s.drawCount, Config.freeSlot s.drawCount⟩

/-! ## The timers (R112) -/

/-- `sat_sub(t, d) = max(0, t - d)` (R15). The test for 0 first gives the same number; it spares a timer at rest the
evaluation of `d`. -/
def satSub (t : Byte) (d : Nat) : Byte := if t = 0x00#8 then 0x00#8 else BitVec.ofNat 8 (t.toNat - d)

/-- Timer decay, unless frozen: the same number of decrements for both timers (R112). -/
def State.decayTimers (s : State) : State :=
  if s.freeze then s else (s.setDt (satSub s.dt s.draw.tdec)).setSt (satSub s.st s.draw.tdec)

/-! ## Fetch (R56, R60, R113) -/

/-- `Fetch16(a)`: big-endian (R16, R56). -/
def State.fetch16 (s : State) (a : Nat) : Word := wordOfBytes (s.readByte a) (s.readByte (a + 1))

/-- The fetch of a step, with its fault (R113, R118). -/
def State.fetch (s : State) : Except Fault Word :=
  match accessFault s.pc.toNat 2 with
  | some r => .error r
  | none => .ok (s.fetch16 s.pc.toNat)

/-! ## The parts of a step around execute (R111, R118) -/

/-- Before execute: timer decay, then the record of the decoder state (R112, R113). -/
def State.beginStep (s : State) (w : Word) : State := s.decayTimers.setDecoded (decodePair w)

/-- After execute, in a step that fetched at `pc0`: advance, `prev_pc <- pc0`, and the draws are used up
(R116, R117). -/
def State.endStep (t : State) (pc0 : Word) : State := (t.advance.setPrevPc pc0).dropDraw

/-! ## The fault (R262, R263) -/

/-- Raise a fault: the step stops with its reason. -/
def raiseFault (r : Fault) : Result := .fault r

/-- The state after a step from `s` that raised `r`: every write of the step is discarded and the reason is recorded
(R263). There is no return from a fault but `init` (R34). -/
def State.commitFault (s : State) (r : Fault) : State := s.setFault (some r)

/-- An access check, then what follows it: a fault is raised before anything is written (R60, R265). -/
def guardAccess (first count : Nat) (next : State) : Result :=
  match accessFault first count with
  | some r => raiseFault r
  | none => .next next

end Sys2Proof.Machine
end

