-- ==== Sys2Proof/Machine/Flags.lean ====
section
/-!
DEFINITION. Every value that an instruction writes to VF as a flag (spec/10_state.md R21; spec/43_arithmetic_logic.md
R177 to R181; spec/44_display.md R203).
-/

namespace Sys2Proof.Machine

/-- `bool(c)` (R15). -/
def boolByte (c : Bool) : Byte := if c then 0x01#8 else 0x00#8

/-- ADD Vx, Vy: the unsigned sum exceeds 255 (R177). -/
def carryFlag (a b : Byte) : Byte := boolByte (decide (255 < a.toNat + b.toNat))

/-- SUB and SUBN: `a - b` with `a` strictly greater than `b` (R178, R180; conflict C3). -/
def noBorrowFlag (a b : Byte) : Byte := boolByte (decide (b.toNat < a.toNat))

/-- SHR: the least significant bit before the shift (R179). -/
def shrFlag (a : Byte) : Byte := a &&& 0x01#8

/-- SHL: the most significant bit before the shift, as 0 or 1 (R181; conflict C4). -/
def shlFlag (a : Byte) : Byte := boolByte (a.getLsbD 7)

/-- DRW: whether a drawn pixel was lit (R203). -/
def collisionFlag (collide : Bool) : Byte := boolByte collide

end Sys2Proof.Machine
end

