-- ==== Sys2Proof/Machine/Operands.lean ====
section
/-!
DEFINITION. The operand forms and the values computed from operands: addresses, the keypad slot map, BCD digits, the
sprite's pixels (spec/30_encoding.md R82, R83; spec/44_display.md R201, R202; spec/45_keys_timers.md R222;
spec/46_index_memory.md R240, R243, R244).
-/

namespace Sys2Proof.Machine

/-- `zext_16(nnn)` (R14, R83). -/
def zext (nnn : Operand) : Word := nnn.setWidth 16

/-- The target of JP V0, nnn (R145). -/
def indexedTarget (nnn : Operand) (v0 : Byte) : Word := zext nnn + v0.setWidth 16

/-- `I + V[x]` modulo 65536 (R242). -/
def addToI (i : Word) (b : Byte) : Word := i + b.setWidth 16

/-- The address of the glyph of a digit: 5 times the register's value, not masked (R54, R244; D21). -/
def glyphAddress (b : Byte) : Word := BitVec.ofNat 16 (Config.glyphBytes * b.toNat)

/-- The three decimal digits of a byte: hundreds, tens, ones (R243). -/
def bcdDigits (b : Byte) : List Byte :=
  [BitVec.ofNat 8 (b.toNat / 100), BitVec.ofNat 8 (b.toNat / 10 % 10), BitVec.ofNat 8 (b.toNat % 10)]

/-- V0 to Vx, the registers that LD [I], Vx stores (R246). -/
def State.regsThrough (s : State) (x : Reg) : List Byte := s.v.toList.take (x.val + 1)

/-- The register file after LD Vx, [I]: V0 to Vx from memory at I, the others as before (R247). -/
def State.regsLoaded (s : State) (x : Reg) : Vector Byte 16 :=
  Vector.ofFn fun k => if k ≤ x then s.readByte (s.i.toNat + k.val) else s.reg k

/-! ## The keypad (R222, R223) -/

/-- KEYMAP, by slot (R222). -/
def keyMap : Vector Byte 16 :=
  #v[0x1, 0x2, 0x3, 0xC, 0x4, 0x5, 0x6, 0xD, 0x7, 0x8, 0x9, 0xE, 0xA, 0x0, 0xB, 0xF]

/-- The slot that LD Vx, K reports: the drawn one if it is pressed, else the lowest pressed one; none when no key is
pressed. As the draw ranges over the slots, this ranges over exactly the pressed slots (R223; D18; log 4). -/
def chosenSlot (keys : Vector Bool 16) (drawn : Fin 16) : Option (Fin 16) :=
  if keys[drawn] then some drawn else (List.finRange 16).find? fun k => keys[k]

/-! ## Sprites (R201 to R204) -/

/-- The cell of the sprite bit in row `r` and column `c`, of a sprite drawn at (xs, ys) (R201; D16). -/
def pixelIndex (xs ys : Byte) (r c : Nat) : Nat :=
  (xs.toNat + c + Config.screenW * (ys.toNat + r)) % Config.screenCells

/-- The bit of column `c` of a sprite byte: bit 7 is the leftmost pixel (R202; D15). -/
def spriteBit (b : Byte) (c : Nat) : Bool := b.getLsbD (7 - c)

/-- The cells under the set bits of one row, columns ascending (R203). -/
def rowPixels (xs ys : Byte) (r : Nat) (b : Byte) : List Nat :=
  ((List.range 8).filter (spriteBit b)).map (pixelIndex xs ys r)

/-- The cells under the set bits of the rows from row `r` on, in the order of drawing (R203). -/
def spritePixels (xs ys : Byte) : Nat → List Byte → List Nat
  | _, [] => []
  | r, b :: rest => rowPixels xs ys r b ++ spritePixels xs ys (r + 1) rest

/-- Draw one pixel: it collides when the cell is not 0, then the cell is complemented (R203, R204; D17). -/
def drawPixel (acc : List Host.Cell × Bool) (j : Nat) : List Host.Cell × Bool :=
  (Screen.write acc.1 j (~~~Screen.read acc.1 j), acc.2 || Screen.read acc.1 j != 0x00#8)

/-- Draw pixels in order; the collision starts as false (R203). -/
def drawPixels (screen : List Host.Cell) (js : List Nat) : List Host.Cell × Bool :=
  js.foldl drawPixel (screen, false)

end Sys2Proof.Machine
end

