-- ==== Sys2Proof/Machine/ControlFlow.lean ====
section
/-!
DEFINITION. SYS, RET, JP, CALL and JP V0 (spec/41_control_flow.md R140 to R145). During execute PC is the address of
the instruction itself, and the step adds 2 afterwards (R115, R116).
-/

namespace Sys2Proof.Machine

/-- SYS nnn, and every unknown word: nothing (R141, R87; log 12). -/
def execSys (_nnn : Operand) (s : State) : Result := .next s

/-- RET: `PC <- stack[SP]`, then SP down by 1 unless it is 0; a fault when SP >= 16 (R142, R261). -/
def execRet (s : State) : Result :=
  match s.slot? s.sp.toNat with
  | none => raiseFault (.stackOutOfRange s.sp)
  | some ret =>
    if s.sp = 0x00#8 then .next (s.setPc ret) else .next ((s.setPc ret).setSp (s.sp - 1))

/-- JP nnn (R143). -/
def execJp (nnn : Operand) (s : State) : Result := .next (s.jump (zext nnn))

/-- CALL nnn: SP up by 1 modulo 256, `stack[SP] <- PC`, a transfer to nnn; a fault when the new SP is >= 16
(R144). -/
def execCall (nnn : Operand) (s : State) : Result :=
  if 16 ≤ (s.sp + 1).toNat then raiseFault (.stackOverflow s.sp)
  else .next (((s.setSp (s.sp + 1)).setSlot (s.sp + 1).toNat s.pc).jump (zext nnn))

/-- JP V0, nnn (R145). -/
def execJpV0 (nnn : Operand) (s : State) : Result := .next (s.jump (indexedTarget nnn (s.reg 0)))

end Sys2Proof.Machine
end

