-- ==== Sys2Proof/Machine/Display.lean ====
section
/-!
DEFINITION. CLS and DRW (spec/44_display.md R200 to R204).
-/

namespace Sys2Proof.Machine

/-- CLS: every cell becomes 0, so none is listed (R200). -/
def execCls (s : State) : Result := .next (s.setScreen [])

/-- DRW Vx, Vy, n: the cells under the set bits of the n sprite bytes at I are complemented, VF is the collision; a
fault before anything is drawn when a sprite byte lies at an address >= 4096 (R203). The coordinates are read before
VF is written. -/
def execDrw (x y : Reg) (n : Fin 16) (s : State) : Result :=
  let drawn := drawPixels s.screen (spritePixels (s.reg x) (s.reg y) 0 (s.readBytes s.i.toNat n.val))
  guardAccess s.i.toNat n.val ((s.setScreen drawn.1).setFlag (collisionFlag drawn.2))

end Sys2Proof.Machine
end

