-- ==== Sys2Proof/Machine/IndexMemory.lean ====
section
/-!
DEFINITION. The index register and block transfer (spec/46_index_memory.md R240 to R247). The block transfers leave I
unchanged (R240; D19).
-/

namespace Sys2Proof.Machine

/-- LD I, nnn (R241). -/
def execLdI (nnn : Operand) (s : State) : Result := .next (s.setI (zext nnn))

/-- ADD I, Vx: no flag (R242; D20). -/
def execAddI (x : Reg) (s : State) : Result := .next (s.setI (addToI s.i (s.reg x)))

/-- LD F, Vx: Vx is not masked (R244; D21). -/
def execLdF (x : Reg) (s : State) : Result := .next (s.setI (glyphAddress (s.reg x)))

/-- LD B, Vx: hundreds, tens and ones at I, I + 1 and I + 2 (R243, R245). -/
def execLdB (x : Reg) (s : State) : Result :=
  guardAccess s.i.toNat 3 (s.writeBytes s.i.toNat (bcdDigits (s.reg x)))

/-- LD [I], Vx: V0 to Vx at I and upwards (R246). -/
def execLdMemVx (x : Reg) (s : State) : Result :=
  guardAccess s.i.toNat (x.val + 1) (s.writeBytes s.i.toNat (s.regsThrough x))

/-- LD Vx, [I]: V0 to Vx from I and upwards (R247). -/
def execLdVxMem (x : Reg) (s : State) : Result :=
  guardAccess s.i.toNat (x.val + 1) (s.setRegs (s.regsLoaded x))

end Sys2Proof.Machine
end

