-- ==== Sys2Proof/Machine/KeysTimers.lean ====
section
/-!
DEFINITION. SKP, SKNP, LD Vx, K and the timer instructions (spec/45_keys_timers.md R220 to R227). SKP and SKNP index
the keys by value, LD Vx, K by slot through KEYMAP (conflict C1; log 15).
-/

namespace Sys2Proof.Machine

/-- SKP Vx: skip when the key of value Vx is pressed; a fault when Vx >= 16 (R220). -/
def execSkp (x : Reg) (s : State) : Result :=
  match s.key? (s.reg x).toNat with
  | none => raiseFault (.keyOutOfRange (s.reg x))
  | some pressed => .next (s.skipIf pressed)

/-- SKNP Vx: skip when the key of value Vx is not pressed; a fault when Vx >= 16 (R221). -/
def execSknp (x : Reg) (s : State) : Result :=
  match s.key? (s.reg x).toNat with
  | none => raiseFault (.keyOutOfRange (s.reg x))
  | some pressed => .next (s.skipIf (!pressed))

/-- LD Vx, K: without a pressed key the instruction runs again in the next step, else Vx is the key value of a
pressed slot (R223, R224). -/
def execLdVxK (x : Reg) (s : State) : Result :=
  match chosenSlot s.keys s.draw.kslot with
  | none => .next s.repeatInstruction
  | some slot => .next (s.setReg x keyMap[slot])

/-- LD Vx, DT: DT has already decayed in this step (R225, R112). -/
def execLdVxDt (x : Reg) (s : State) : Result := .next (s.setReg x s.dt)

/-- LD DT, Vx (R226). -/
def execLdDtVx (x : Reg) (s : State) : Result := .next (s.setDt (s.reg x))

/-- LD ST, Vx (R227). -/
def execLdStVx (x : Reg) (s : State) : Result := .next (s.setSt (s.reg x))

end Sys2Proof.Machine
end

