-- ==== Sys2Proof/Machine/Skip.lean ====
section
/-!
DEFINITION. SE and SNE (spec/42_conditional_skip.md R160 to R164): no skip writes a register or a flag, and none
faults.
-/

namespace Sys2Proof.Machine

/-- SE Vx, kk (R161). -/
def execSeImm (x : Reg) (kk : Byte) (s : State) : Result := .next (s.skipIf (s.reg x == kk))

/-- SNE Vx, kk (R162). -/
def execSneImm (x : Reg) (kk : Byte) (s : State) : Result := .next (s.skipIf (s.reg x != kk))

/-- SE Vx, Vy (R163). -/
def execSeReg (x y : Reg) (s : State) : Result := .next (s.skipIf (s.reg x == s.reg y))

/-- SNE Vx, Vy (R164). -/
def execSneReg (x y : Reg) (s : State) : Result := .next (s.skipIf (s.reg x != s.reg y))

end Sys2Proof.Machine
end

