-- ==== Sys2Proof/Machine/Step.lean ====
section
/-!
DEFINITION. The step (spec/40_dispatch_and_cycle.md R110 to R118), and the placing of a word where the next step
fetches.
-/

namespace Sys2Proof.Machine

/-- The execute phase between the two other parts of a step that fetched the word `w` (R111, R114). -/
def runWord (s : State) (w : Word) : Host.Outcome State Fault Refusal :=
  match exec (decodeWord w) (s.beginStep w) with
  | .next t => .next (t.endStep s.pc)
  | .fault r => .fault r
  | .refused r => .refused r

/-- One step (R118). While `fault` is set there is no step, and the answer is its reason (R110). A raised fault stops
the step; `State.commitFault` is the state that R263 leaves (log 7). -/
def step (s : State) : Host.Outcome State Fault Refusal :=
  match s.fault with
  | some r => .fault r
  | none =>
    match s.fetch with
    | .error r => .fault r
    | .ok w => runWord s w

/-- Where a word is placed for the next step: the PC, or the reset PC when the PC is at no word of memory
(log 26). -/
def State.fetchPc (s : State) : Word :=
  if s.pc.toNat + 1 < Config.memSize then s.pc else BitVec.ofNat 16 Config.progBase

/-- The word stored big-endian where the next step fetches, with no fault pending (R34, R56; logs 20 and 26). -/
def State.withFetchWord (s : State) (nbits w : Nat) : State :=
  (((s.setFault none).setPc s.fetchPc).writeBytes s.fetchPc.toNat
    [highByte (tableWord nbits w), lowByte (tableWord nbits w)])

end Sys2Proof.Machine
end

