-- ==== Sys2Proof/Machine/Ports.lean ====
section
/-!
DEFINITION. The ports of the block other than the step and the debug port (spec/00_scope.md R12): init, load, cycle,
pixel, sound and loop. They act between steps (spec/00_scope.md R10; spec/40_dispatch_and_cycle.md R124).
-/

namespace Sys2Proof.Machine

/-- `init`: the state of R37, whatever the state before it (R290). The configuration, the inputs and the draws are not
state of the block and stay (log 21). -/
def State.init (s : State) : State :=
  { State.reset with
    font := s.font, keys := s.keys, freeze := s.freeze, draws := s.draws, drawCount := s.drawCount }

/-- The load-status codes (R296). -/
inductive LoadStatus where
  | ok
  | fileNotFound
  | fileNotGood
  | invalidFileSize
  deriving DecidableEq, Repr

/-- The size check of an image (R294). -/
def validSize (size : Nat) : Bool := decide (1 ≤ size) && decide (size ≤ Config.romMax)

/-- `load(image)`: init first, then the image at 0x200 if its size is valid; a failed load is never partial
(R294, R295, R297). -/
def State.load (s : State) (image : List Byte) : LoadStatus × State :=
  if validSize image.length then
    (.ok, (s.init.writeBytes Config.progBase image).setRomSize image.length)
  else (.invalidFileSize, s.init)

/-- What the host's file layer finds at a path (R296; log 22). -/
inductive RomFile where
  /-- The path does not resolve to an existing file. -/
  | missing
  /-- A file of this size that cannot be opened for binary reading. -/
  | unreadable (size : Nat)
  /-- The bytes of a readable file. -/
  | readable (image : List Byte)
  deriving DecidableEq, Repr

/-- A load through the file layer: not found, then the size, then not good; every failure leaves the state of `init`
(R291, R296, R297). -/
def State.loadRom (s : State) : RomFile → LoadStatus × State
  | .missing => (.fileNotFound, s.init)
  | .unreadable size => if validSize size then (.fileNotGood, s.init) else (.invalidFileSize, s.init)
  | .readable image => s.load image

/-- The state after a step, a fault being committed (R263); a refusal, which no step of this machine answers, leaves
the state. -/
def State.afterStep (s : State) : State :=
  match step s with
  | .next t => t
  | .fault r => s.commitFault r
  | .refused _ => s

/-- `n` steps in sequence; once `fault` is set there is no further one (R110, R119). -/
def State.steps : Nat → State → State
  | 0, s => s
  | n + 1, s =>
    match s.fault with
    | some _ => s
    | none => State.steps n s.afterStep

/-- `cycle(n, keys, freeze)`: n steps, each with the same keys and freeze and with its own draws (R119). -/
def State.cycle (s : State) (n : Nat) (keys : Vector Bool 16) (freeze : Bool) : State :=
  State.steps n (s.setInputs keys freeze)

/-- `pixel(x, y)`: the raw cell, refused outside the screen (R125). -/
def State.pixel (s : State) (x y : Nat) : Except Refusal Byte :=
  if x < Config.screenW ∧ y < Config.screenH then .ok (s.cell (x + Config.screenW * y))
  else .error (.pixelOutside x y)

/-- `sound` (R126). -/
def State.soundOutput (s : State) : Bool := s.st != 0x00#8

/-- `loop`: the last step executed JP nnn at address nnn (R127). -/
def State.loopOutput (s : State) : Bool := s.decOp == 3 && s.decOperand.setWidth 16 == s.prevPc

end Sys2Proof.Machine
end

