-- ==== Sys2Proof/Machine/Debug.lean ====
section
/-!
DEFINITION. The debug port (spec/60_exceptions.md R280 to R284): state access, instruction read and disassembly,
between steps. Attach and detach are left out by spec/00_scope.md R5 (R281).
-/

namespace Sys2Proof.Machine

/-- What the host may write: any value of the field's width, nothing validated (R282). -/
inductive DebugWrite where
  | v (x : Reg) (b : Byte)
  | i (a : Word)
  | pc (a : Word)
  | sp (b : Byte)
  | dt (b : Byte)
  | st (b : Byte)
  | mem (a : Fin 4096) (b : Byte)
  | stack (k : Fin 16) (a : Word)
  | screen (j : Fin 2048) (b : Byte)
  deriving DecidableEq, Repr

/-- A write through the debug port (R282). -/
def State.debugWrite (s : State) : DebugWrite → State
  | .v x b => s.setReg x b
  | .i a => s.setI a
  | .pc a => s.setPc a
  | .sp b => s.setSp b
  | .dt b => s.setDt b
  | .st b => s.setSt b
  | .mem a b => s.writeByte a.val b
  | .stack k a => s.setSlot k.val a
  | .screen j b => s.setScreen (Screen.write s.screen j.val b)

/-- What the host may read (R282): what it may write, and rom_size, dec_op, dec_operand and prev_pc. The fault is the
port `fault`, which is the field itself. -/
inductive DebugField where
  | v (x : Reg)
  | i
  | pc
  | sp
  | dt
  | st
  | mem (a : Fin 4096)
  | stack (k : Fin 16)
  | screen (j : Fin 2048)
  | romSize
  | decOp
  | decOperand
  | prevPc
  deriving DecidableEq, Repr

/-- A read through the debug port, as an unsigned number (R13, R282). -/
def State.debugRead (s : State) : DebugField → Nat
  | .v x => (s.reg x).toNat
  | .i => s.i.toNat
  | .pc => s.pc.toNat
  | .sp => s.sp.toNat
  | .dt => s.dt.toNat
  | .st => s.st.toNat
  | .mem a => (s.readByte a.val).toNat
  | .stack k => s.stack[k].toNat
  | .screen j => (s.cell j.val).toNat
  | .romSize => s.romSize
  | .decOp => s.decOp.val
  | .decOperand => s.decOperand.toNat
  | .prevPc => s.prevPc.toNat

/-- The fault port: none, or the reason the block is stopped for (R12, R34). -/
def State.faultPort (s : State) : Option Fault := s.fault

/-- `getInstructionAt(a)`: the big-endian word, refused above 0xFFE (R284). -/
def State.getInstructionAt (s : State) (a : Nat) : Except Refusal Word :=
  if a ≤ 0xFFE then .ok (s.fetch16 a) else .error (.instructionReadOutside a)

/-! ## Disassembly (R91, R92, R283): the spec's conventional syntax (log 24) -/

/-- One hexadecimal digit. -/
def hexDigit (n : Nat) : String :=
  match n with
  | 0 => "0" | 1 => "1" | 2 => "2" | 3 => "3" | 4 => "4" | 5 => "5" | 6 => "6" | 7 => "7"
  | 8 => "8" | 9 => "9" | 10 => "A" | 11 => "B" | 12 => "C" | 13 => "D" | 14 => "E" | _ => "F"

/-- `Vx` (R91). -/
def showReg (x : Reg) : String := "V" ++ hexDigit x.val

/-- A byte, `0x00` to `0xFF` (R91). -/
def showByte (b : Byte) : String := "0x" ++ hexDigit (b.toNat / 16) ++ hexDigit (b.toNat % 16)

/-- An address, `0x000` to `0xFFF` (R91). -/
def showOperand (a : Operand) : String :=
  "0x" ++ hexDigit (a.toNat / 256) ++ hexDigit (a.toNat / 16 % 16) ++ hexDigit (a.toNat % 16)

/-- A row count, `0x0` to `0xF` (R91). -/
def showCount (n : Fin 16) : String := "0x" ++ hexDigit n.val

/-- The text of an instruction, its operands by position (R86, R91, R92). -/
def renderInstr : Instr → String
  | .sys nnn => "SYS " ++ showOperand nnn
  | .cls => "CLS"
  | .ret => "RET"
  | .jp nnn => "JP " ++ showOperand nnn
  | .call nnn => "CALL " ++ showOperand nnn
  | .seImm x kk => "SE " ++ showReg x ++ ", " ++ showByte kk
  | .sneImm x kk => "SNE " ++ showReg x ++ ", " ++ showByte kk
  | .seReg x y => "SE " ++ showReg x ++ ", " ++ showReg y
  | .ldImm x kk => "LD " ++ showReg x ++ ", " ++ showByte kk
  | .addImm x kk => "ADD " ++ showReg x ++ ", " ++ showByte kk
  | .ldReg x y => "LD " ++ showReg x ++ ", " ++ showReg y
  | .or x y => "OR " ++ showReg x ++ ", " ++ showReg y
  | .and x y => "AND " ++ showReg x ++ ", " ++ showReg y
  | .xor x y => "XOR " ++ showReg x ++ ", " ++ showReg y
  | .addReg x y => "ADD " ++ showReg x ++ ", " ++ showReg y
  | .sub x y => "SUB " ++ showReg x ++ ", " ++ showReg y
  | .shr x y => "SHR " ++ showReg x ++ ", " ++ showReg y
  | .subn x y => "SUBN " ++ showReg x ++ ", " ++ showReg y
  | .shl x y => "SHL " ++ showReg x ++ ", " ++ showReg y
  | .sneReg x y => "SNE " ++ showReg x ++ ", " ++ showReg y
  | .ldI nnn => "LD I, " ++ showOperand nnn
  | .jpV0 nnn => "JP V0, " ++ showOperand nnn
  | .rnd x kk => "RND " ++ showReg x ++ ", " ++ showByte kk
  | .drw x y n => "DRW " ++ showReg x ++ ", " ++ showReg y ++ ", " ++ showCount n
  | .skp x => "SKP " ++ showReg x
  | .sknp x => "SKNP " ++ showReg x
  | .ldVxDt x => "LD " ++ showReg x ++ ", DT"
  | .ldVxK x => "LD " ++ showReg x ++ ", K"
  | .ldDtVx x => "LD DT, " ++ showReg x
  | .ldStVx x => "LD ST, " ++ showReg x
  | .addI x => "ADD I, " ++ showReg x
  | .ldF x => "LD F, " ++ showReg x
  | .ldB x => "LD B, " ++ showReg x
  | .ldMemVx x => "LD [I], " ++ showReg x
  | .ldVxMem x => "LD " ++ showReg x ++ ", [I]"

/-- `disassemble(w)`: decodes without any state (R283). -/
def disassemble (w : Word) : String := renderInstr (decodeWord w)

end Sys2Proof.Machine
end

