-- ==== Sys2Proof/Safety.lean ====
section
/-!
DEFINITION. The terms claims are stated in: well-formed states, what a step or an instruction leaves unchanged, when a
step can fetch, and when a run has ended safely (spec/10_state.md R25, R29; spec/40_dispatch_and_cycle.md R114;
spec/70_reset_and_hazards.md R308).
-/

namespace Sys2Proof.Machine

/-! ## Invariants -/

/-- Memory and screen are in canonical form, inside their bounds (log 23). -/
def State.wf (s : State) : Bool := Memory.wf s.font s.mem && Screen.wf s.screen

/-- Every cell of the screen is 0x00 or 0xFF (R29). -/
def State.screenIsBinary (s : State) : Prop := ∀ j, s.cell j = 0x00#8 ∨ s.cell j = 0xFF#8

/-- SP points at a slot of the stack (R25). -/
def State.spInRange (s : State) : Prop := s.sp.toNat < 16

/-! ## Frames -/

/-- What an instruction may change; everything not named here stays. -/
structure Changes where
  /-- The general registers that may change. -/
  regs : List Reg := []
  i : Bool := false
  pc : Bool := false
  sp : Bool := false
  /-- The stack slots that may change. -/
  slots : List Nat := []
  dt : Bool := false
  st : Bool := false
  /-- The first address of memory stored to, and the number of bytes stored. -/
  stored : Nat × Nat := (0, 0)
  screen : Bool := false
  deriving DecidableEq, Repr

/-- `t` differs from `s` in nothing but what `c` names. Memory is compared byte by byte, the screen cell by cell. The
decoder state, prev_pc, rom_size, fault, the configuration, the inputs and the draws are changed by no execute phase
(R114). -/
structure Frame (c : Changes) (s t : State) : Prop where
  regs : ∀ k : Reg, k ∉ c.regs → t.reg k = s.reg k
  i : c.i = false → t.i = s.i
  pc : c.pc = false → t.pc = s.pc
  sp : c.sp = false → t.sp = s.sp
  slots : ∀ k, k ∉ c.slots → t.slot? k = s.slot? k
  dt : c.dt = false → t.dt = s.dt
  st : c.st = false → t.st = s.st
  mem : ∀ a, ¬(c.stored.1 ≤ a ∧ a < c.stored.1 + c.stored.2) → t.readByte a = s.readByte a
  screen : c.screen = false → ∀ j, t.cell j = s.cell j
  decOp : t.decOp = s.decOp
  decOperand : t.decOperand = s.decOperand
  prevPc : t.prevPc = s.prevPc
  romSize : t.romSize = s.romSize
  fault : t.fault = s.fault
  font : t.font = s.font
  keys : t.keys = s.keys
  freeze : t.freeze = s.freeze
  draws : t.draws = s.draws
  drawCount : t.drawCount = s.drawCount

/-- Change the state of an answer that goes on; a fault or a refusal stays. -/
def mapNext (f : State → State) : Result → Result
  | .next t => .next (f t)
  | .fault r => .fault r
  | .refused r => .refused r

/-- The timers as the decay of a step leaves them (R112). -/
def State.dtDecayed (s : State) : Nat := if s.freeze then s.dt.toNat else s.dt.toNat - s.draw.tdec

/-- The timers as the decay of a step leaves them (R112). -/
def State.stDecayed (s : State) : Nat := if s.freeze then s.st.toNat else s.st.toNat - s.draw.tdec

/-- The step from `s` finds the word `w` at PC: no fault is pending, the two bytes lie in memory, and they are `w`,
high byte first (R56, R110, R113). -/
def State.fetches (s : State) (w : Word) : Prop :=
  s.fault = none ∧ s.pc.toNat + 1 < 4096 ∧
    s.readByte s.pc.toNat = highByte w ∧ s.readByte (s.pc.toNat + 1) = lowByte w

/-! ## The end of a run (R308) -/

/-- A run has ended: no fault, and the last step executed JP nnn at address nnn (R308). -/
def State.ended (s : State) : Prop := s.fault = none ∧ s.loopOutput = true

/-- `n` steps from `s` meet no fault. A state with a fault refutes every claim about its run (R308). -/
def RunsSafely (s : State) (n : Nat) : Prop := (State.steps n s).fault = none

/-- The run from `s` ends after `n` steps, and not before (R308). -/
def EndsAfter (s : State) (n : Nat) : Prop :=
  (State.steps n s).ended ∧ ∀ k, k < n → ¬(State.steps k s).ended

end Sys2Proof.Machine
end

