-- ==== Sys2Proof/Certificates/Slice0/Obligations.lean ====
section
/-!
DEFINITION. The statements for the provers, in the order of OBLIGATIONS.json. A statement about what an instruction
does says that `exec` answers a next state, what that state holds, and its frame (`Sys2Proof.Machine.Frame`). Where a
clause is a decision of the spec (D<n>) or of the model (log <n>), the docstring names it.
-/

open Sys2Proof Sys2Proof.Machine

/-! ## Reset, init and load -/

/-- 10_state.md section 9: every field of the spec at its reset value, byte by byte and cell by cell. The decoder
state, prev_pc and fault are the spec's decisions D25 and D8; reading "zero registers" as I, DT and ST too is
log 17. -/
def Obligations.ResetHoldsTheStatedValues : Prop :=
  (∀ x : Reg, State.reset.reg x = 0x00#8) ∧ State.reset.i = 0x0000#16 ∧ State.reset.pc = 0x0200#16 ∧
  State.reset.sp = 0x00#8 ∧ (∀ k, k < 16 → State.reset.slot? k = some 0x0000#16) ∧
  State.reset.dt = 0x00#8 ∧ State.reset.st = 0x00#8 ∧
  (∀ a : Fin 80, State.reset.readByte a.val = State.reset.font[a]) ∧
  (∀ a, 80 ≤ a → State.reset.readByte a = 0x00#8) ∧ (∀ j, State.reset.cell j = 0x00#8) ∧
  State.reset.decOp = 0 ∧ State.reset.decOperand = 0x000#12 ∧ State.reset.prevPc = 0x0200#16 ∧
  State.reset.romSize = 0 ∧ State.reset.fault = none ∧ State.reset.soundOutput = false ∧
  State.reset.loopOutput = false

/-- The invariants stated below hold at reset (log 23 for the canonical form; R25, R29). -/
def Obligations.ResetMeetsTheInvariants : Prop :=
  State.reset.wf = true ∧ State.reset.screenIsBinary ∧ State.reset.spInRange

/-- R290 (D8, D25), R291: the state after `init` is the reset state in every field of the spec, whatever the state
before; the state at construction is the state after `init`; the model's own fields stay (log 21), and memory holds
the configured FONT (D24). -/
def Obligations.InitDoesNotDependOnTheStateBefore : Prop :=
  (∀ s : State, { s.init with
      font := State.reset.font, keys := State.reset.keys, freeze := State.reset.freeze,
      draws := State.reset.draws, drawCount := State.reset.drawCount } = State.reset) ∧
  State.reset.init = State.reset ∧
  (∀ s : State, (∀ a : Fin 80, s.init.readByte a.val = s.font[a]) ∧
    (∀ a, 80 ≤ a → s.init.readByte a = 0x00#8) ∧ s.init.font = s.font ∧ s.init.keys = s.keys ∧
    s.init.freeze = s.freeze ∧ s.init.draws = s.draws ∧ s.init.drawCount = s.drawCount)

/-- R295: a load of a valid size. -/
def Obligations.LoadInstallsTheImage : Prop :=
  ∀ (s : State) (image : List Byte), 1 ≤ image.length → image.length ≤ 3584 →
    (s.load image).1 = .ok ∧ (s.load image).2.romSize = image.length ∧
    (∀ k, (h : k < image.length) → 0x200 + k ≤ 0xFFF ∧ (s.load image).2.readByte (0x200 + k) = image[k]) ∧
    (∀ a, 80 ≤ a → ¬(0x200 ≤ a ∧ a < 0x200 + image.length) → (s.load image).2.readByte a = 0x00#8) ∧
    (∀ a : Fin 80, (s.load image).2.readByte a.val = s.font[a]) ∧
    Frame { stored := (0x200, image.length) } (s.init.setRomSize image.length) (s.load image).2

/-- R294, R296 and R297: every load attempt begins with `init` (R291); a failed one leaves the state of `init`; the
status codes, the file layer's checks in the order not found, size, not good (log 22 for the form of its answer). -/
def Obligations.FailedLoadLeavesTheInitState : Prop :=
  (∀ (s : State) (image : List Byte), image.length = 0 ∨ 3584 < image.length →
    s.load image = (.invalidFileSize, s.init)) ∧
  (∀ s : State, s.loadRom .missing = (.fileNotFound, s.init)) ∧
  (∀ (s : State) (size : Nat), size = 0 ∨ 3584 < size →
    s.loadRom (.unreadable size) = (.invalidFileSize, s.init)) ∧
  (∀ (s : State) (size : Nat), 1 ≤ size → size ≤ 3584 →
    s.loadRom (.unreadable size) = (.fileNotGood, s.init)) ∧
  (∀ (s : State) (image : List Byte), s.loadRom (.readable image) = s.load image) ∧
  (∀ (s : State) (file : RomFile), (s.loadRom file).1 ≠ .ok → (s.loadRom file).2 = s.init) ∧
  (∀ (s : State) (image : List Byte), 1 ≤ image.length → image.length ≤ 3584 → (s.load image).1 = .ok)

/-! ## Encoding and decoding -/

/-- Words written out from the column "encoding" of the opcode table decode to their instructions. -/
def Obligations.SampleWordsDecode : Prop :=
  decode [0b00000000#8, 0b11100000#8] = .ok (.cls, []) ∧
  decode [0b00101010#8, 0b10111100#8] = .ok (.call 0xABC#12, []) ∧
  decode [0b01101010#8, 0b00111100#8] = .ok (.ldImm 0xA 0x3C#8, []) ∧
  decode [0b10000101#8, 0b00101110#8] = .ok (.shl 5 2, []) ∧
  decode [0b11010001#8, 0b00100101#8] = .ok (.drw 1 2 5, []) ∧
  decode [0b11100010#8, 0b10100001#8] = .ok (.sknp 2, []) ∧
  decode [0b11110010#8, 0b01100101#8] = .ok (.ldVxMem 2, [])

/-- R93 with R84: decoding the bytes of a well-formed instruction gives it back and leaves the bytes after it, for
every instruction with every operand. -/
def Obligations.DecodingInvertsEncoding : Prop :=
  ∀ (i : Instr) (rest : List Byte), i.wellFormed = true → decode (encode i ++ rest) = .ok (i, rest)

/-- The other direction (R84, R89, R93): a known word is the word of the instruction it decodes to, but for the second
nibble of CLS and RET, which is any; and what a word decodes to is well formed. -/
def Obligations.EncodingInvertsDecoding : Prop :=
  (∀ (w : Word) (i : Instr), decodeKnown w = some i → i ≠ .cls → i ≠ .ret → encodeWord i = w) ∧
  (∀ (w : Word) (i : Instr), decodeKnown w = some i → i = .cls ∨ i = .ret → encodeWord i = w &&& 0xF0FF#16) ∧
  (∀ w : Word, (decodeWord w).wellFormed = true)

/-- R86 (D9): the match and mask columns, in the order in which they are tested, are the exact condition of the
decoder, for all 65536 words. -/
def Obligations.DecoderIsTheOpcodeTable : Prop :=
  ∀ w : Word, (rowOf w).map OpcodeRow.index = (decodeKnown w).map Instr.index

/-- R88: the unknown words are exactly these. -/
def Obligations.UnknownWordsAreExactlyTheListed : Prop :=
  ∀ w : Word, decodeKnown w = none ↔
    ((familyOf w = 0x5#4 ∨ familyOf w = 0x9#4) ∧ nOf w ≠ 0x0#4) ∨
    (familyOf w = 0x8#4 ∧ nOf w ∈ [0x8#4, 0x9#4, 0xA#4, 0xB#4, 0xC#4, 0xD#4, 0xF#4]) ∨
    (familyOf w = 0xE#4 ∧ kkOf w ∉ [0x9E#8, 0xA1#8]) ∨
    (familyOf w = 0xF#4 ∧ kkOf w ∉ [0x07#8, 0x0A#8, 0x15#8, 0x18#8, 0x1E#8, 0x29#8, 0x33#8, 0x55#8, 0x65#8])

/-- R87, for a word that matches no row of the table: it decodes to index 0 with operand 0, and its step only advances
PC by 2, besides what every step does: the timers decay (D22; log 2), the decoder state is recorded, prev_pc is the
address of the step (D25; log 17), and the step's draws are used up (the model's choice, log 5). No two bytes fail to
decode. -/
def Obligations.UnknownWordsAreNoOps : Prop :=
  (∀ hi lo : Byte, ∃ i, decode [hi, lo] = .ok (i, [])) ∧
  ∀ w : Word, (∀ r ∈ opcodeRows, w &&& r.mask ≠ r.value) →
    decodePair w = (0, 0x000#12) ∧
    ∀ s : State, s.fetches w →
      ∃ t, step s = .next t ∧ t.pc = s.pc + 2 ∧ t.dt.toNat = s.dtDecayed ∧ t.st.toNat = s.stDecayed ∧
        Frame { pc := true, dt := true, st := true }
          (((s.setDecoded (0, 0x000#12)).setPrevPc s.pc).dropDraw) t

/-! ## The step -/

/-- R113, R114, R118: when the bytes at PC decode to an instruction, the step is its execute phase between the two
parts that every step has. -/
def Obligations.StepRunsTheDecodedInstruction : Prop :=
  ∀ (s : State) (i : Instr), s.fault = none → s.pc.toNat + 1 < 4096 →
    decode (s.readBytes s.pc.toNat 2) = .ok (i, []) →
    step s = mapNext (fun t => t.endStep s.pc) (exec i (s.beginStep (s.fetch16 s.pc.toNat)))

/-- R111, R112, R116, R117: what a step does before execute (decay, decoder state) and after it (advance, prev_pc;
the draws are used up, log 5), and that it does nothing else there. -/
def Obligations.StepSurroundsExecute : Prop :=
  (∀ (s : State) (w : Word),
    (s.beginStep w).dt.toNat = s.dtDecayed ∧ (s.beginStep w).st.toNat = s.stDecayed ∧
    ((s.beginStep w).decOp, (s.beginStep w).decOperand) = decodePair w ∧
    Frame { dt := true, st := true } (s.setDecoded (decodePair w)) (s.beginStep w)) ∧
  (∀ (t : State) (pc0 : Word),
    (t.endStep pc0).pc = t.pc + 2 ∧ (t.endStep pc0).prevPc = pc0 ∧ (t.endStep pc0).draws = t.draws.tail ∧
    (t.endStep pc0).drawCount = t.drawCount + 1 ∧
    Frame { pc := true } ((t.setPrevPc pc0).dropDraw) (t.endStep pc0))

/-- R56: the fetch is big-endian, and the debug port's instruction read uses the same order. -/
def Obligations.FetchIsBigEndian : Prop :=
  (∀ (s : State) (a : Nat), (s.fetch16 a).toNat = (s.readByte a).toNat * 256 + (s.readByte (a + 1)).toNat) ∧
  (∀ (s : State) (w : Word), s.fetches w → s.fetch = .ok w) ∧
  (∀ (s : State) (a : Nat), a ≤ 0xFFE → s.getInstructionAt a = .ok (s.fetch16 a))

/-- R113: a step at a PC whose word is not in memory faults with the first address outside; a step that goes on has
written dec_op and dec_operand from the word at the PC it started with. -/
def Obligations.StepFetchesAndRecordsTheDecoderState : Prop :=
  (∀ s : State, s.fault = none → 4096 ≤ s.pc.toNat + 1 →
    step s = .fault (.memOutOfRange (if 4096 ≤ s.pc.toNat then s.pc.toNat else s.pc.toNat + 1))) ∧
  (∀ s t : State, step s = .next t →
    (t.decOp, t.decOperand) = decodePair (wordOfBytes (s.readByte s.pc.toNat) (s.readByte (s.pc.toNat + 1))))

/-- R31: the decoder state is written by every step from its word, and no instruction reads it: whatever it held, the
execute phase answers the same. The debug port's decode, `disassemble`, is a function of the word alone, so it writes
nothing. -/
def Obligations.DecoderStateIsNeverRead : Prop :=
  (∀ s t : State, step s = .next t → (t.decOp, t.decOperand) = decodePair (s.fetch16 s.pc.toNat)) ∧
  (∀ (i : Instr) (s : State) (d : OpIndex × Operand),
    exec i (s.setDecoded d) = mapNext (fun t => t.setDecoded d) (exec i s))

/-- R116 (modulus D3; log 10): the net next PC of every step that goes on, by instruction. The conditions of the skips
are those of R161 to R164 and of R220 and R221 (conflict C1; log 15), the wait of LD Vx, K is that of R223, and the
targets are those of R142 to R145. -/
def Obligations.NextPcOfEveryInstruction : Prop :=
  ∀ s t : State, step s = .next t →
    let w := s.fetch16 s.pc.toNat
    (∀ nnn, decodeWord w = .jp nnn → t.pc.toNat = nnn.toNat) ∧
    (∀ nnn, decodeWord w = .call nnn → t.pc.toNat = nnn.toNat) ∧
    (∀ nnn, decodeWord w = .jpV0 nnn → t.pc.toNat = nnn.toNat + (s.reg 0).toNat) ∧
    (decodeWord w = .ret → ∃ ret, s.slot? s.sp.toNat = some ret ∧ t.pc = ret + 2) ∧
    (∀ x kk, decodeWord w = .seImm x kk → t.pc = if s.reg x = kk then s.pc + 4 else s.pc + 2) ∧
    (∀ x kk, decodeWord w = .sneImm x kk → t.pc = if s.reg x = kk then s.pc + 2 else s.pc + 4) ∧
    (∀ x y, decodeWord w = .seReg x y → t.pc = if s.reg x = s.reg y then s.pc + 4 else s.pc + 2) ∧
    (∀ x y, decodeWord w = .sneReg x y → t.pc = if s.reg x = s.reg y then s.pc + 2 else s.pc + 4) ∧
    (∀ x, decodeWord w = .skp x →
      t.pc = if s.key? (s.reg x).toNat = some true then s.pc + 4 else s.pc + 2) ∧
    (∀ x, decodeWord w = .sknp x →
      t.pc = if s.key? (s.reg x).toNat = some true then s.pc + 2 else s.pc + 4) ∧
    (∀ x, decodeWord w = .ldVxK x →
      t.pc = if (∀ k : Fin 16, s.keys[k] = false) then s.pc else s.pc + 2) ∧
    ((decodeWord w).index ∈ ([0, 1, 8, 9, 10, 11, 12, 13, 14, 15, 16, 17, 18, 20, 22, 23, 26, 28, 29, 30, 31, 32,
        33, 34] : List OpIndex) → t.pc = s.pc + 2)

/-- R264 and R265 (D1, D5, D6, D7): a step without a pending fault faults exactly in the listed cases, with the listed
reason; and no step is refused. -/
def Obligations.StepFaultsExactlyAsListed : Prop :=
  (∀ (s : State) (r : Refusal), step s ≠ .refused r) ∧
  ∀ (s : State) (r : Fault), s.fault = none →
    (step s = .fault r ↔
      (4096 ≤ s.pc.toNat + 1 ∧ r = .memOutOfRange (max s.pc.toNat 4096)) ∨
      (s.pc.toNat + 1 < 4096 ∧
        ((∃ x y, ∃ n : Fin 16, decodeWord (s.fetch16 s.pc.toNat) = .drw x y n ∧ 1 ≤ n.val ∧
            4096 ≤ s.i.toNat + n.val - 1 ∧ r = .memOutOfRange (max s.i.toNat 4096)) ∨
         (∃ x, decodeWord (s.fetch16 s.pc.toNat) = .ldB x ∧ 4096 ≤ s.i.toNat + 2 ∧
            r = .memOutOfRange (max s.i.toNat 4096)) ∨
         (∃ x, (decodeWord (s.fetch16 s.pc.toNat) = .ldMemVx x ∨
              decodeWord (s.fetch16 s.pc.toNat) = .ldVxMem x) ∧ 4096 ≤ s.i.toNat + x.val ∧
            r = .memOutOfRange (max s.i.toNat 4096)) ∨
         (∃ nnn, decodeWord (s.fetch16 s.pc.toNat) = .call nnn ∧ 16 ≤ (s.sp.toNat + 1) % 256 ∧
            r = .stackOverflow s.sp) ∨
         (decodeWord (s.fetch16 s.pc.toNat) = .ret ∧ 16 ≤ s.sp.toNat ∧ r = .stackOutOfRange s.sp) ∨
         (∃ x, (decodeWord (s.fetch16 s.pc.toNat) = .skp x ∨ decodeWord (s.fetch16 s.pc.toNat) = .sknp x) ∧
            16 ≤ (s.reg x).toNat ∧ r = .keyOutOfRange (s.reg x)))))

/-- R263, R110 (D2, D8; log 7): a raised fault leaves the state before the step with the reason recorded, the timers
included; then no step is possible and a `cycle` call changes nothing but the inputs; `init` clears the fault. -/
def Obligations.FaultDiscardsTheStepAndStops : Prop :=
  (∀ (s : State) (r : Fault), s.fault = none → step s = .fault r →
    s.afterStep.fault = some r ∧ Frame {} (s.setFault (some r)) s.afterStep) ∧
  (∀ (s : State) (r : Fault), s.fault = some r → step s = .fault r) ∧
  (∀ (s : State) (r : Fault) (n : Nat) (keys : Vector Bool 16) (freeze : Bool), s.fault = some r →
    s.cycle n keys freeze = s.setInputs keys freeze) ∧
  (∀ s : State, s.init.fault = none)

/-- R119 (D29): `cycle` runs its steps in sequence, so two calls with the same inputs are one; a call of one step is
the step; a call of none only gives the inputs; and the inputs stay as given. -/
def Obligations.CycleIsItsStepsInSequence : Prop :=
  (∀ (s : State) (m n : Nat) (keys : Vector Bool 16) (freeze : Bool),
    s.cycle (m + n) keys freeze = (s.cycle m keys freeze).cycle n keys freeze) ∧
  (∀ (s t : State) (keys : Vector Bool 16) (freeze : Bool), step (s.setInputs keys freeze) = .next t →
    s.cycle 1 keys freeze = t) ∧
  (∀ (s : State) (keys : Vector Bool 16) (freeze : Bool), s.cycle 0 keys freeze = s.setInputs keys freeze) ∧
  (∀ (s : State) (n : Nat) (keys : Vector Bool 16) (freeze : Bool),
    (s.cycle n keys freeze).keys = keys ∧ (s.cycle n keys freeze).freeze = freeze)

/-! ## Invariants -/

/-- Log 23: every step keeps memory and screen in canonical form and inside their bounds. -/
def Obligations.StepKeepsTheCanonicalForm : Prop :=
  ∀ s t : State, s.wf = true → step s = .next t → t.wf = true

/-- R29: every step keeps every cell of the screen 0x00 or 0xFF. -/
def Obligations.StepKeepsTheScreenBinary : Prop :=
  ∀ s t : State, s.screenIsBinary → step s = .next t → t.screenIsBinary

/-- R25, R26 (D5): every step keeps SP in 0..15, and then never writes slot 0 of the stack. -/
def Obligations.StepKeepsTheStackPointerInRange : Prop :=
  ∀ s t : State, s.spInRange → step s = .next t → t.spInRange ∧ t.slot? 0 = s.slot? 0

/-- Log 23: memories in canonical form that read alike are equal data, and so are screens. -/
def Obligations.CanonicalFormIsUnique : Prop :=
  (∀ (font : Config.FontImage) (m m' : List Host.Cell), Memory.wf font m = true → Memory.wf font m' = true →
    (∀ a, a < 4096 → Cells.read (Memory.unlisted font) m a = Cells.read (Memory.unlisted font) m' a) → m = m') ∧
  (∀ c c' : List Host.Cell, Screen.wf c = true → Screen.wf c' = true →
    (∀ j, j < 2048 → Screen.read c j = Screen.read c' j) → c = c')

/-- R20 to R34, R50: which instructions may change which state in a step. That the block transfers leave I is D19 and
that no other instruction writes VF is D13 (logs 16 and 13); the decay is D22 (log 2); prev_pc is D25 (log 17); that
`fault` is none after a step that goes on is D8 (log 7). That the inputs and FONT stand in State, and stay in a step,
is the model's choice (logs 1 and 6). -/
def Obligations.OnlyTheNamedInstructionsWriteEachState : Prop :=
  ∀ s t : State, step s = .next t →
    let k := (decodeWord (s.fetch16 s.pc.toNat)).index
    (k ∉ ([20, 30, 31] : List OpIndex) → t.i = s.i) ∧
    (k ∉ ([2, 4] : List OpIndex) → t.sp = s.sp) ∧
    (k ≠ 4 → ∀ n, t.slot? n = s.slot? n) ∧
    (k ≠ 28 → t.dt.toNat = s.dtDecayed) ∧
    (k ≠ 29 → t.st.toNat = s.stDecayed) ∧
    (k ∉ ([32, 33] : List OpIndex) → ∀ a, t.readByte a = s.readByte a) ∧
    (k ∉ ([1, 23] : List OpIndex) → ∀ j, t.cell j = s.cell j) ∧
    (k ∈ ([0, 1, 2, 3, 4, 5, 6, 7, 19, 20, 21, 24, 25, 28, 29, 30, 31, 32, 33] : List OpIndex) →
      ∀ x, t.reg x = s.reg x) ∧
    (k ∉ ([14, 15, 16, 17, 18, 23] : List OpIndex) → xOf (s.fetch16 s.pc.toNat) ≠ 15 →
      t.reg 15 = s.reg 15) ∧
    t.romSize = s.romSize ∧ t.font = s.font ∧ t.keys = s.keys ∧ t.freeze = s.freeze ∧ t.prevPc = s.pc ∧
    t.fault = none

/-! ## Control flow -/

/-- R141 (D9, D10): SYS has no effect. -/
def Obligations.SysHasNoEffect : Prop :=
  ∀ (nnn : Operand) (s : State), ∃ t, exec (.sys nnn) s = .next t ∧ Frame {} s t

/-- R143: JP, its encoding, its result and its corner cases. -/
def Obligations.JpTransfersToItsOperand : Prop :=
  (∀ w : Word, familyOf w = 0x1#4 → decodeWord w = .jp (operandOf w) ∧ decodePair w = (3, operandOf w)) ∧
  (∀ (nnn : Operand) (s : State), ∃ t, exec (.jp nnn) s = .next t ∧
    t.pc.toNat = (nnn.toNat + 65536 - 2) % 65536 ∧ Frame { pc := true } s t) ∧
  (∀ (s : State) (w : Word), s.fetches w → familyOf w = 0x1#4 →
    ∃ t, step s = .next t ∧ t.pc.toNat = (operandOf w).toNat ∧
      (t.loopOutput = true ↔ (operandOf w).toNat = s.pc.toNat) ∧
      (operandOf w = 0xFFF#12 → step t = .fault (.memOutOfRange 0x1000)))

/-- R144 (D5): CALL, with its fault. -/
def Obligations.CallPushesItsOwnAddress : Prop :=
  ∀ (nnn : Operand) (s : State),
    ((s.sp.toNat + 1) % 256 < 16 → ∃ t, exec (.call nnn) s = .next t ∧
      t.sp.toNat = (s.sp.toNat + 1) % 256 ∧ t.slot? t.sp.toNat = some s.pc ∧
      t.pc.toNat = (nnn.toNat + 65536 - 2) % 65536 ∧
      Frame { pc := true, sp := true, slots := [(s.sp.toNat + 1) % 256] } s t) ∧
    (16 ≤ (s.sp.toNat + 1) % 256 → exec (.call nnn) s = .fault (.stackOverflow s.sp))

/-- R142 (D6): RET, with its fault. -/
def Obligations.RetPopsTheStack : Prop :=
  ∀ s : State,
    (∀ ret, s.slot? s.sp.toNat = some ret → ∃ t, exec .ret s = .next t ∧ t.pc = ret ∧
      t.sp.toNat = s.sp.toNat - 1 ∧ Frame { pc := true, sp := true } s t) ∧
    (s.sp.toNat < 16 → ∃ t, exec .ret s = .next t) ∧
    (16 ≤ s.sp.toNat → exec .ret s = .fault (.stackOutOfRange s.sp))

/-- R261: RET on the empty stack reads slot 0 and leaves SP at 0. -/
def Obligations.RetOnTheEmptyStackIsDefined : Prop :=
  ∀ s : State, s.sp = 0x00#8 → ∃ t ret, s.slot? 0 = some ret ∧ exec .ret s = .next t ∧ t.pc = ret ∧
    t.sp = 0x00#8 ∧ Frame { pc := true } s t

/-- R142 with R144: a RET that finds SP and the stack as a CALL left them goes back to the CALL's own address, which
the advance of the step takes to the instruction after it, and SP is as before the CALL. -/
def Obligations.RetReturnsBehindItsCall : Prop :=
  ∀ (nnn : Operand) (s t u : State), s.sp.toNat < 15 → exec (.call nnn) s = .next t →
    u.sp = t.sp → u.stack = t.stack →
    ∃ r, exec .ret u = .next r ∧ r.sp = s.sp ∧ ∀ pc0, (r.endStep pc0).pc = s.pc + 2

/-- R145 (D30): JP V0, nnn. -/
def Obligations.JpV0AddsV0 : Prop :=
  ∀ (nnn : Operand) (s : State), ∃ t, exec (.jpV0 nnn) s = .next t ∧
    t.pc.toNat = (nnn.toNat + (s.reg 0).toNat + 65536 - 2) % 65536 ∧ Frame { pc := true } s t

/-- R160 to R164: the four register skips. -/
def Obligations.SkipsAdvanceByTwoMore : Prop :=
  ∀ (x y : Reg) (kk : Byte) (s : State),
    (∃ t, exec (.seImm x kk) s = .next t ∧
      t.pc = (if (s.reg x).toNat = kk.toNat then s.pc + 2 else s.pc) ∧ Frame { pc := true } s t) ∧
    (∃ t, exec (.sneImm x kk) s = .next t ∧
      t.pc = (if (s.reg x).toNat = kk.toNat then s.pc else s.pc + 2) ∧ Frame { pc := true } s t) ∧
    (∃ t, exec (.seReg x y) s = .next t ∧
      t.pc = (if (s.reg x).toNat = (s.reg y).toNat then s.pc + 2 else s.pc) ∧ Frame { pc := true } s t) ∧
    (∃ t, exec (.sneReg x y) s = .next t ∧
      t.pc = (if (s.reg x).toNat = (s.reg y).toNat then s.pc else s.pc + 2) ∧ Frame { pc := true } s t)

/-! ## Register loads, arithmetic and logic -/

/-- R171: LD Vx, kk, its encoding and its result. -/
def Obligations.LdImmediateLoadsItsByte : Prop :=
  (∀ w : Word, familyOf w = 0x6#4 → decodeWord w = .ldImm (xOf w) (kkOf w) ∧ (decodePair w).1 = 8) ∧
  (∀ (x : Reg) (kk : Byte) (s : State), ∃ t, exec (.ldImm x kk) s = .next t ∧ t.reg x = kk ∧
    Frame { regs := [x] } s t)

/-- R172: ADD Vx, kk wraps and sets no flag. -/
def Obligations.AddImmediateWrapsWithoutFlag : Prop :=
  ∀ (x : Reg) (kk : Byte) (s : State), ∃ t, exec (.addImm x kk) s = .next t ∧
    (t.reg x).toNat = ((s.reg x).toNat + kk.toNat) % 256 ∧ Frame { regs := [x] } s t

/-- R173 to R176 (D13): LD Vx, Vy, OR, AND and XOR, bit by bit; no flag. -/
def Obligations.CopyAndLogicWriteOnlyVx : Prop :=
  ∀ (x y : Reg) (s : State),
    (∃ t, exec (.ldReg x y) s = .next t ∧ t.reg x = s.reg y ∧ Frame { regs := [x] } s t) ∧
    (∃ t, exec (.or x y) s = .next t ∧
      (∀ b, (t.reg x).getLsbD b = ((s.reg x).getLsbD b || (s.reg y).getLsbD b)) ∧
      Frame { regs := [x] } s t) ∧
    (∃ t, exec (.and x y) s = .next t ∧
      (∀ b, (t.reg x).getLsbD b = ((s.reg x).getLsbD b && (s.reg y).getLsbD b)) ∧
      Frame { regs := [x] } s t) ∧
    (∃ t, exec (.xor x y) s = .next t ∧
      (∀ b, (t.reg x).getLsbD b = ((s.reg x).getLsbD b ^^ (s.reg y).getLsbD b)) ∧
      Frame { regs := [x] } s t)

/-- R177, R170 (D12): ADD Vx, Vy; the flag survives in VF when x = F. -/
def Obligations.AddRegisterSetsTheCarry : Prop :=
  ∀ (x y : Reg) (s : State), ∃ t, exec (.addReg x y) s = .next t ∧
    (x ≠ 15 → (t.reg x).toNat = ((s.reg x).toNat + (s.reg y).toNat) % 256) ∧
    (t.reg 15).toNat = (if 255 < (s.reg x).toNat + (s.reg y).toNat then 1 else 0) ∧
    Frame { regs := [x, 15] } s t

/-- R178, R180, R170 (D12; conflict C3): SUB and SUBN, the flag strict. -/
def Obligations.SubtractionsSetTheStrictFlag : Prop :=
  ∀ (x y : Reg) (s : State),
    (∃ t, exec (.sub x y) s = .next t ∧
      (x ≠ 15 → (t.reg x).toNat = ((s.reg x).toNat + 256 - (s.reg y).toNat) % 256) ∧
      (t.reg 15).toNat = (if (s.reg y).toNat < (s.reg x).toNat then 1 else 0) ∧ Frame { regs := [x, 15] } s t) ∧
    (∃ t, exec (.subn x y) s = .next t ∧
      (x ≠ 15 → (t.reg x).toNat = ((s.reg y).toNat + 256 - (s.reg x).toNat) % 256) ∧
      (t.reg 15).toNat = (if (s.reg x).toNat < (s.reg y).toNat then 1 else 0) ∧ Frame { regs := [x, 15] } s t)

/-- R179, R181, R170 (D12, D14; conflict C4): SHR and SHL of Vx; Vy is not read, so the y field does not matter. -/
def Obligations.ShiftsSetTheBitShiftedOut : Prop :=
  ∀ (x y : Reg) (s : State),
    (∃ t, exec (.shr x y) s = .next t ∧ (x ≠ 15 → (t.reg x).toNat = (s.reg x).toNat / 2) ∧
      (t.reg 15).toNat = (s.reg x).toNat % 2 ∧ Frame { regs := [x, 15] } s t) ∧
    (∃ t, exec (.shl x y) s = .next t ∧ (x ≠ 15 → (t.reg x).toNat = (s.reg x).toNat * 2 % 256) ∧
      (t.reg 15).toNat = (s.reg x).toNat / 128 ∧ Frame { regs := [x, 15] } s t) ∧
    (∀ y' : Reg, exec (.shr x y') s = exec (.shr x y) s ∧ exec (.shl x y') s = exec (.shl x y) s)

/-- R182 (D23): RND writes the step's drawn byte masked with kk, whatever byte was drawn; and every byte can be the
drawn one. -/
def Obligations.RndMasksTheDrawnByte : Prop :=
  (∀ (x : Reg) (kk : Byte) (s : State), ∃ t, exec (.rnd x kk) s = .next t ∧
    (∀ b, (t.reg x).getLsbD b = (s.draw.rnd.getLsbD b && kk.getLsbD b)) ∧ Frame { regs := [x] } s t) ∧
  (∀ (x : Reg) (kk r : Byte) (s : State), ∃ d t, exec (.rnd x kk) { s with draws := [d] } = .next t ∧
    t.reg x = r &&& kk)

/-! ## Display -/

/-- R200: CLS, its encoding and its result. -/
def Obligations.ClsClearsEveryCell : Prop :=
  (∀ w : Word, w &&& 0xF0FF#16 = 0x00E0#16 → decodeWord w = .cls ∧ (decodePair w).1 = 1) ∧
  (∀ s : State, ∃ t, exec .cls s = .next t ∧ (∀ j, j < 2048 → t.cell j = 0x00#8) ∧
    Frame { screen := true } s t)

/-- R201 to R204 (D15, D16, D17): DRW cell by cell. The cell of column c in row r is (Vx + c + 64 (Vy + r)) mod 2048,
drawn when bit 7 - c of the byte at I + r is 1. -/
def Obligations.DrwComplementsTheCellsOfTheSprite : Prop :=
  ∀ (x y : Reg) (n : Fin 16) (s : State),
    let drawn : Nat → Prop := fun j => ∃ r, r < n.val ∧ ∃ c, c < 8 ∧
      (s.readByte (s.i.toNat + r)).getLsbD (7 - c) = true ∧
      ((s.reg x).toNat + c + 64 * ((s.reg y).toNat + r)) % 2048 = j
    (n.val = 0 ∨ s.i.toNat + n.val ≤ 4096 → ∃ t, exec (.drw x y n) s = .next t ∧
      (∀ j, drawn j → t.cell j = ~~~(s.cell j)) ∧ (∀ j, ¬drawn j → t.cell j = s.cell j) ∧
      ((∃ j, drawn j ∧ s.cell j ≠ 0x00#8) → t.reg 15 = 0x01#8) ∧
      ((∀ j, drawn j → s.cell j = 0x00#8) → t.reg 15 = 0x00#8) ∧
      Frame { regs := [15], screen := true } s t) ∧
    (1 ≤ n.val → 4096 < s.i.toNat + n.val →
      exec (.drw x y n) s = .fault (.memOutOfRange (if 4096 ≤ s.i.toNat then s.i.toNat else 4096)))

/-- R203: a sprite drawn twice at the same place leaves the screen as it was. -/
def Obligations.DrawingTwiceRestoresTheScreen : Prop :=
  ∀ (x y : Reg) (n : Fin 16) (s t : State), x ≠ 15 → y ≠ 15 → exec (.drw x y n) s = .next t →
    ∃ u, exec (.drw x y n) t = .next u ∧ ∀ j, u.cell j = s.cell j

/-! ## Keys and timers -/

/-- R220, R221 (D7): SKP and SKNP index the keys by value. -/
def Obligations.KeySkipsTestTheKeyOfTheirValue : Prop :=
  ∀ (x : Reg) (s : State),
    (∀ k : Fin 16, (s.reg x).toNat = k.val →
      (∃ t, exec (.skp x) s = .next t ∧ t.pc = (if s.keys[k] = true then s.pc + 2 else s.pc) ∧
        Frame { pc := true } s t) ∧
      (∃ t, exec (.sknp x) s = .next t ∧ t.pc = (if s.keys[k] = true then s.pc else s.pc + 2) ∧
        Frame { pc := true } s t)) ∧
    (16 ≤ (s.reg x).toNat →
      exec (.skp x) s = .fault (.keyOutOfRange (s.reg x)) ∧
      exec (.sknp x) s = .fault (.keyOutOfRange (s.reg x)))

/-- R222 to R224 (D18): LD Vx, K waits while no key is pressed, else reports the key value of a pressed slot; and each
pressed slot can be the reported one. -/
def Obligations.LdKeyWaitsOrReportsAPressedSlot : Prop :=
  let keyValues : List Byte :=
    [0x1, 0x2, 0x3, 0xC, 0x4, 0x5, 0x6, 0xD, 0x7, 0x8, 0x9, 0xE, 0xA, 0x0, 0xB, 0xF]
  ∀ (x : Reg) (s : State),
    ((∀ k : Fin 16, s.keys[k] = false) → ∃ t, exec (.ldVxK x) s = .next t ∧ t.pc = s.pc - 2 ∧
      Frame { pc := true } s t) ∧
    ((∃ k : Fin 16, s.keys[k] = true) → ∃ t, exec (.ldVxK x) s = .next t ∧
      (∃ k : Fin 16, s.keys[k] = true ∧ keyValues[k.val]? = some (t.reg x)) ∧ Frame { regs := [x] } s t) ∧
    (∀ k : Fin 16, s.keys[k] = true → ∃ d t, exec (.ldVxK x) { s with draws := [d] } = .next t ∧
      keyValues[k.val]? = some (t.reg x))

/-- R30: the keys are read by SKP, SKNP and LD Vx, K only. -/
def Obligations.OnlyKeyInstructionsReadTheKeys : Prop :=
  ∀ (i : Instr) (s : State) (keys : Vector Bool 16), i.index ∉ ([24, 25, 27] : List OpIndex) →
    exec i (s.setInputs keys s.freeze) = mapNext (fun t => t.setInputs keys s.freeze) (exec i s)

/-- R27, R225, R226: the delay timer: who writes and reads it, its decay in a step, and that nothing else depends on
it. -/
def Obligations.DelayTimerRules : Prop :=
  (∀ w : Word, familyOf w = 0xF#4 → kkOf w = 0x07#8 → decodeWord w = .ldVxDt (xOf w) ∧ (decodePair w).1 = 26) ∧
  (∀ w : Word, familyOf w = 0xF#4 → kkOf w = 0x15#8 → decodeWord w = .ldDtVx (xOf w) ∧ (decodePair w).1 = 28) ∧
  (∀ (x : Reg) (s : State), ∃ t, exec (.ldVxDt x) s = .next t ∧ t.reg x = s.dt ∧ Frame { regs := [x] } s t) ∧
  (∀ (x : Reg) (s : State), ∃ t, exec (.ldDtVx x) s = .next t ∧ t.dt = s.reg x ∧ Frame { dt := true } s t) ∧
  (∀ (s : State) (w : Word) (x : Reg), s.fetches w → decodeWord w = .ldVxDt x →
    ∃ t, step s = .next t ∧ (t.reg x).toNat = s.dtDecayed ∧ t.dt.toNat = s.dtDecayed) ∧
  (∀ (s : State) (w : Word) (x : Reg), s.fetches w → decodeWord w = .ldDtVx x →
    ∃ t, step s = .next t ∧ t.dt = s.reg x) ∧
  (∀ s t : State, step s = .next t → (decodeWord (s.fetch16 s.pc.toNat)).index ≠ 28 →
    t.dt.toNat = s.dtDecayed) ∧
  (∀ (i : Instr) (s : State) (b : Byte), i.index ∉ ([26, 28] : List OpIndex) →
    exec i (s.setDt b) = mapNext (fun t => t.setDt b) (exec i s))

/-- R28, R126, R227: the sound timer: who writes it, that no instruction reads it, its decay in a step, and the sound
output. -/
def Obligations.SoundTimerRules : Prop :=
  (∀ w : Word, familyOf w = 0xF#4 → kkOf w = 0x18#8 → decodeWord w = .ldStVx (xOf w) ∧ (decodePair w).1 = 29) ∧
  (∀ (x : Reg) (s : State), ∃ t, exec (.ldStVx x) s = .next t ∧ t.st = s.reg x ∧ Frame { st := true } s t) ∧
  (∀ (s : State) (w : Word) (x : Reg), s.fetches w → decodeWord w = .ldStVx x →
    ∃ t, step s = .next t ∧ t.st = s.reg x ∧ (t.soundOutput = true ↔ s.reg x ≠ 0x00#8)) ∧
  (∀ s t : State, step s = .next t → (decodeWord (s.fetch16 s.pc.toNat)).index ≠ 29 →
    t.st.toNat = s.stDecayed) ∧
  (∀ (i : Instr) (s : State) (b : Byte), i.index ≠ 29 →
    exec i (s.setSt b) = mapNext (fun t => t.setSt b) (exec i s)) ∧
  (∀ (x : Reg) (s : State) (b : Byte), exec (.ldStVx x) (s.setSt b) = exec (.ldStVx x) s) ∧
  (∀ s : State, s.soundOutput = true ↔ s.st.toNat ≠ 0)

/-! ## The index register and block transfer -/

/-- R241, R242, R244 (D3, D20, D21): the three writers of I. -/
def Obligations.IndexInstructionsWriteOnlyI : Prop :=
  (∀ (nnn : Operand) (s : State), ∃ t, exec (.ldI nnn) s = .next t ∧ t.i.toNat = nnn.toNat ∧
    Frame { i := true } s t) ∧
  (∀ (x : Reg) (s : State), ∃ t, exec (.addI x) s = .next t ∧
    t.i.toNat = (s.i.toNat + (s.reg x).toNat) % 65536 ∧ Frame { i := true } s t) ∧
  (∀ (x : Reg) (s : State), ∃ t, exec (.ldF x) s = .next t ∧ t.i.toNat = 5 * (s.reg x).toNat ∧
    Frame { i := true } s t)

/-- R243: the three decimal digits of a byte, as LD B stores them. -/
def Obligations.BcdDigitsAreTheDecimalExpansion : Prop :=
  ∀ v : Byte, ∃ h t o : Byte, bcdDigits v = [h, t, o] ∧ h.toNat = v.toNat / 100 ∧ t.toNat = v.toNat / 10 % 10 ∧
    o.toNat = v.toNat % 10 ∧ h.toNat ≤ 2 ∧ t.toNat ≤ 9 ∧ o.toNat ≤ 9 ∧
    100 * h.toNat + 10 * t.toNat + o.toNat = v.toNat

/-- R245 (D1, D2): LD B stores the digits at I, I + 1 and I + 2, or faults before it stores anything. -/
def Obligations.LdBStoresTheDigits : Prop :=
  ∀ (x : Reg) (s : State),
    (s.i.toNat + 2 < 4096 → ∃ t, exec (.ldB x) s = .next t ∧
      (t.readByte s.i.toNat).toNat = (s.reg x).toNat / 100 ∧
      (t.readByte (s.i.toNat + 1)).toNat = (s.reg x).toNat / 10 % 10 ∧
      (t.readByte (s.i.toNat + 2)).toNat = (s.reg x).toNat % 10 ∧
      Frame { stored := (s.i.toNat, 3) } s t) ∧
    (4096 ≤ s.i.toNat + 2 →
      exec (.ldB x) s = .fault (.memOutOfRange (if 4096 ≤ s.i.toNat then s.i.toNat else 4096)))

/-- R246 (D1, D2, D19): LD [I], Vx stores V0 to Vx and leaves I, or faults before it stores anything. -/
def Obligations.LdMemStoresTheRegisters : Prop :=
  ∀ (x : Reg) (s : State),
    (s.i.toNat + x.val < 4096 → ∃ t, exec (.ldMemVx x) s = .next t ∧
      (∀ k : Reg, k ≤ x → t.readByte (s.i.toNat + k.val) = s.reg k) ∧
      Frame { stored := (s.i.toNat, x.val + 1) } s t) ∧
    (4096 ≤ s.i.toNat + x.val →
      exec (.ldMemVx x) s = .fault (.memOutOfRange (if 4096 ≤ s.i.toNat then s.i.toNat else 4096)))

/-- R247 (D1, D2, D19): LD Vx, [I] loads V0 to Vx and leaves I and the registers above x, or faults before it loads
anything. -/
def Obligations.LdRegistersLoadsFromMemory : Prop :=
  ∀ (x : Reg) (s : State),
    (s.i.toNat + x.val < 4096 → ∃ t, exec (.ldVxMem x) s = .next t ∧
      (∀ k : Reg, k ≤ x → t.reg k = s.readByte (s.i.toNat + k.val)) ∧
      Frame { regs := (List.finRange 16).filter (fun k => k ≤ x) } s t) ∧
    (4096 ≤ s.i.toNat + x.val →
      exec (.ldVxMem x) s = .fault (.memOutOfRange (if 4096 ≤ s.i.toNat then s.i.toNat else 4096)))

/-- R246 with R247: registers stored by LD [I], Vx come back by LD Vx, [I], whatever they held in between. The second
transfer starts at the same address because the first one leaves I (D19; log 16). -/
def Obligations.StoredRegistersLoadBack : Prop :=
  ∀ (x : Reg) (s t : State) (v : Vector Byte 16), exec (.ldMemVx x) s = .next t →
    ∃ u, exec (.ldVxMem x) (t.setRegs v) = .next u ∧ (∀ k : Reg, k ≤ x → u.reg k = s.reg k) ∧
      ∀ k : Reg, x < k → u.reg k = v[k]

/-! ## Ports -/

/-- R127 (D25, D30): after a step, `loop` is true exactly when the step executed JP nnn at address nnn. -/
def Obligations.LoopOutputMarksASelfJump : Prop :=
  ∀ s t : State, step s = .next t →
    (t.loopOutput = true ↔ ∃ nnn, decodeWord (s.fetch16 s.pc.toNat) = .jp nnn ∧ nnn.toNat = s.pc.toNat)

/-- R308 (D30): from a state that a step has left with `loop` true, the next step runs again and changes nothing but
DT and ST, which decay (and the model's draws, log 5). -/
def Obligations.EndedRunChangesOnlyTheTimers : Prop :=
  ∀ s t : State, step s = .next t → t.loopOutput = true →
    ∃ u, step t = .next u ∧ u.loopOutput = true ∧ u.dt.toNat = t.dtDecayed ∧ u.st.toNat = t.stDecayed ∧
      Frame { dt := true, st := true } t.dropDraw u

/-- R308 (D30): a run that has ended stays ended, safely, at the same place and with the same registers, memory and
screen, however many further steps the host asks for. -/
def Obligations.EndedRunStaysEnded : Prop :=
  ∀ (s : State) (n m : Nat), 1 ≤ n → n ≤ m → (State.steps n s).ended →
    RunsSafely s m ∧ (State.steps m s).ended ∧ (State.steps m s).pc = (State.steps n s).pc ∧
    (∀ x, (State.steps m s).reg x = (State.steps n s).reg x) ∧
    (∀ a, (State.steps m s).readByte a = (State.steps n s).readByte a) ∧
    (∀ j, (State.steps m s).cell j = (State.steps n s).cell j)

/-- R299: stepping through zeroed memory from 0x200. After k steps, k up to 1792, PC is 0x200 + 2k; the 1793rd step
faults at 0x1000. -/
def Obligations.ZeroedMemoryRunsToTheEnd : Prop :=
  ∀ s : State, s.fault = none → s.pc = 0x200#16 → (∀ a, 0x200 ≤ a → a < 4096 → s.readByte a = 0x00#8) →
    (∀ k, k ≤ 1792 → (State.steps k s).fault = none ∧ (State.steps k s).pc.toNat = 0x200 + 2 * k ∧
      ∀ x, (State.steps k s).reg x = s.reg x) ∧
    (State.steps 1793 s).fault = some (.memOutOfRange 0x1000)

/-- R125, R284 (D27, D28): the queries that are answered and the ones that are refused. -/
def Obligations.PortQueriesAnswerInsideTheirRange : Prop :=
  (∀ (s : State) (x y : Nat), x < 64 → y < 32 → s.pixel x y = .ok (s.cell (x + 64 * y))) ∧
  (∀ (s : State) (x y : Nat), 64 ≤ x ∨ 32 ≤ y → s.pixel x y = .error (.pixelOutside x y)) ∧
  (∀ (s : State) (a : Nat), a ≤ 0xFFE →
    s.getInstructionAt a = .ok (wordOfBytes (s.readByte a) (s.readByte (a + 1)))) ∧
  (∀ (s : State) (a : Nat), 0xFFF ≤ a → s.getInstructionAt a = .error (.instructionReadOutside a))

/-- R282 (D28): a write through the debug port stores the value as given and changes nothing else. -/
def Obligations.DebugWritesReadBackAndNothingElseChanges : Prop :=
  ∀ s : State,
    (∀ x b, (s.debugWrite (.v x b)).debugRead (.v x) = b.toNat ∧
      Frame { regs := [x] } s (s.debugWrite (.v x b))) ∧
    (∀ a, (s.debugWrite (.i a)).debugRead .i = a.toNat ∧ Frame { i := true } s (s.debugWrite (.i a))) ∧
    (∀ a, (s.debugWrite (.pc a)).debugRead .pc = a.toNat ∧ Frame { pc := true } s (s.debugWrite (.pc a))) ∧
    (∀ b, (s.debugWrite (.sp b)).debugRead .sp = b.toNat ∧ Frame { sp := true } s (s.debugWrite (.sp b))) ∧
    (∀ b, (s.debugWrite (.dt b)).debugRead .dt = b.toNat ∧ Frame { dt := true } s (s.debugWrite (.dt b))) ∧
    (∀ b, (s.debugWrite (.st b)).debugRead .st = b.toNat ∧ Frame { st := true } s (s.debugWrite (.st b))) ∧
    (∀ a b, (s.debugWrite (.mem a b)).debugRead (.mem a) = b.toNat ∧
      Frame { stored := (a.val, 1) } s (s.debugWrite (.mem a b))) ∧
    (∀ k a, (s.debugWrite (.stack k a)).debugRead (.stack k) = a.toNat ∧
      Frame { slots := [k.val] } s (s.debugWrite (.stack k a))) ∧
    (∀ j b, (s.debugWrite (.screen j b)).debugRead (.screen j) = b.toNat ∧
      (∀ j', j' ≠ j.val → (s.debugWrite (.screen j b)).cell j' = s.cell j') ∧
      Frame { screen := true } s (s.debugWrite (.screen j b)))
end

