-- ==== Sys2Proof/Laws/Cells.lean ====
section
/-!
SUPPORT. The laws of the sparse cells behind memory and the screen: a read after a write, and that every operation
keeps the canonical form.
-/

namespace Sys2Proof.Machine

variable (f : Nat → Byte)

theorem Cells.read_insert (c : List Host.Cell) (a : Nat) (b : Byte) (a' : Nat) :
    Cells.read f (Cells.insert c a b) a' = if a' = a then b else Cells.read f c a' := by
  induction c with
  | nil => simp [Cells.insert, Cells.read]
  | cons p rest ih =>
    obtain ⟨k, v⟩ := p
    simp only [Cells.insert]
    split_ifs with h1 h2 <;> simp only [Cells.read] <;> grind

theorem Cells.read_erase (c : List Host.Cell) (a a' : Nat) :
    Cells.read f (Cells.erase c a) a' = if a' = a then f a else Cells.read f c a' := by
  induction c with
  | nil => simp only [Cells.erase, Cells.read]; grind
  | cons p rest ih =>
    obtain ⟨k, v⟩ := p
    by_cases h1 : a = k
    · simp only [Cells.erase, if_pos h1, ih, Cells.read]; grind
    · simp only [Cells.erase, if_neg h1, ih, Cells.read]; grind

/-- A read after a write gives the written value there, and what it gave before everywhere else. -/
@[simp] theorem Cells.read_write (c : List Host.Cell) (a : Nat) (b : Byte) (a' : Nat) :
    Cells.read f (Cells.write f c a b) a' = if a' = a then b else Cells.read f c a' := by
  unfold Cells.write
  by_cases h : b = f a
  · simp [h, Cells.read_erase]
  · simp [h, Cells.read_insert]

theorem Cells.rising_weaken {bound lo lo' : Nat} {c : List Host.Cell} (h : Cells.rising bound lo c = true)
    (hl : lo' ≤ lo) : Cells.rising bound lo' c = true := by
  cases c with
  | nil => rfl
  | cons p rest =>
    obtain ⟨k, v⟩ := p
    simp only [Cells.rising, Bool.and_eq_true, decide_eq_true_eq] at *
    exact ⟨⟨by omega, h.1.2⟩, h.2⟩

theorem Cells.rising_insert {bound : Nat} (c : List Host.Cell) (lo a : Nat) (b : Byte)
    (h : Cells.rising bound lo c = true) (hlo : lo ≤ a) (ha : a < bound) :
    Cells.rising bound lo (Cells.insert c a b) = true := by
  induction c generalizing lo with
  | nil => simp [Cells.insert, Cells.rising, hlo, ha]
  | cons p rest ih =>
    obtain ⟨k, v⟩ := p
    simp only [Cells.rising, Bool.and_eq_true, decide_eq_true_eq] at h
    simp only [Cells.insert]
    split_ifs with h1 h2
    · simp only [Cells.rising, Bool.and_eq_true, decide_eq_true_eq]
      exact ⟨⟨hlo, ha⟩, ⟨by omega, h.1.2⟩, h.2⟩
    · subst h2
      simp only [Cells.rising, Bool.and_eq_true, decide_eq_true_eq]
      exact ⟨⟨hlo, ha⟩, h.2⟩
    · simp only [Cells.rising, Bool.and_eq_true, decide_eq_true_eq]
      exact ⟨h.1, ih (k + 1) h.2 (by omega)⟩

theorem Cells.rising_erase {bound : Nat} (c : List Host.Cell) (lo a : Nat) (h : Cells.rising bound lo c = true) :
    Cells.rising bound lo (Cells.erase c a) = true := by
  induction c generalizing lo with
  | nil => rfl
  | cons p rest ih =>
    obtain ⟨k, v⟩ := p
    simp only [Cells.rising, Bool.and_eq_true, decide_eq_true_eq] at h
    simp only [Cells.erase]
    split_ifs with h1
    · exact Cells.rising_weaken (ih (k + 1) h.2) (by omega)
    · simp only [Cells.rising, Bool.and_eq_true, decide_eq_true_eq]
      exact ⟨h.1, ih (k + 1) h.2⟩

theorem Cells.informative_insert (c : List Host.Cell) (a : Nat) (b : Byte) (hb : b ≠ f a)
    (h : Cells.informative f c = true) : Cells.informative f (Cells.insert c a b) = true := by
  induction c with
  | nil => simp [Cells.insert, Cells.informative, hb]
  | cons p rest ih =>
    obtain ⟨k, v⟩ := p
    simp only [Cells.informative, List.all_cons, Bool.and_eq_true] at h ih
    simp only [Cells.insert]
    split_ifs <;> simp_all [Cells.informative]

theorem Cells.informative_erase (c : List Host.Cell) (a : Nat) (h : Cells.informative f c = true) :
    Cells.informative f (Cells.erase c a) = true := by
  induction c with
  | nil => rfl
  | cons p rest ih =>
    obtain ⟨k, v⟩ := p
    simp only [Cells.informative, List.all_cons, Bool.and_eq_true] at h ih
    simp only [Cells.erase]
    split_ifs <;> simp_all [Cells.informative]

/-- A write inside the bound keeps the canonical form. -/
theorem Cells.wf_write {bound : Nat} {c : List Host.Cell} {a : Nat} {b : Byte} (h : Cells.wf f bound c = true)
    (ha : a < bound) : Cells.wf f bound (Cells.write f c a b) = true := by
  simp only [Cells.wf, Bool.and_eq_true] at *
  unfold Cells.write
  split_ifs with hb
  · exact ⟨Cells.rising_erase c 0 a h.1, Cells.informative_erase f c a h.2⟩
  · exact ⟨Cells.rising_insert c 0 a b h.1 (Nat.zero_le a) ha, Cells.informative_insert f c a b hb h.2⟩

theorem Cells.wf_nil (bound : Nat) : Cells.wf f bound [] = true := rfl

end Sys2Proof.Machine
end

