-- ==== Sys2Proof/Laws/Decode.lean ====
section
/-!
SUPPORT. The fields of a word and the words built from fields: each field read back, and a word from its bytes.
-/

namespace Sys2Proof

theorem getLsbD_wordNnn (f : BitVec 4) (nnn : Operand) (k : Nat) :
    (wordNnn f nnn).getLsbD k = if k < 12 then nnn.getLsbD k else f.getLsbD (k - 12) :=
  BitVec.getLsbD_append

theorem getLsbD_wordXkk (f : BitVec 4) (x : Reg) (kk : Byte) (k : Nat) :
    (wordXkk f x kk).getLsbD k = if k < 12 then (if k < 8 then kk.getLsbD k else (nibbleOf x).getLsbD (k - 8))
      else f.getLsbD (k - 12) := by
  have h : (nibbleOf x ++ kk).getLsbD k = if k < 8 then kk.getLsbD k else (nibbleOf x).getLsbD (k - 8) :=
    BitVec.getLsbD_append
  rw [← h]; exact BitVec.getLsbD_append

theorem getLsbD_wordXyn (f : BitVec 4) (x y : Reg) (n : BitVec 4) (k : Nat) :
    (wordXyn f x y n).getLsbD k =
      if k < 12 then (if k < 8 then (if k < 4 then n.getLsbD k else (nibbleOf y).getLsbD (k - 4))
        else (nibbleOf x).getLsbD (k - 8)) else f.getLsbD (k - 12) := by
  have h : (nibbleOf y ++ n).getLsbD k = if k < 4 then n.getLsbD k else (nibbleOf y).getLsbD (k - 4) :=
    BitVec.getLsbD_append
  have h' : (nibbleOf x ++ (nibbleOf y ++ n)).getLsbD k =
      if k < 8 then (nibbleOf y ++ n).getLsbD k else (nibbleOf x).getLsbD (k - 8) := BitVec.getLsbD_append
  rw [← h, ← h']; exact BitVec.getLsbD_append

theorem getLsbD_wordOfBytes (hi lo : Byte) (k : Nat) :
    (wordOfBytes hi lo).getLsbD k = if k < 8 then lo.getLsbD k else hi.getLsbD (k - 8) :=
  BitVec.getLsbD_append

@[simp] theorem toFin_nibbleOf (x : Fin 16) : (nibbleOf x).toFin = x := rfl

/-! ## The fields read back -/

@[simp] theorem familyOf_wordNnn (f : BitVec 4) (nnn : Operand) : familyOf (wordNnn f nnn) = f := by
  ext k hk
  simp only [familyOf, BitVec.getElem_extractLsb', getLsbD_wordNnn]
  rw [if_neg (by omega), Nat.add_sub_cancel_left, BitVec.getLsbD_eq_getElem hk]

@[simp] theorem operandOf_wordNnn (f : BitVec 4) (nnn : Operand) : operandOf (wordNnn f nnn) = nnn := by
  ext k hk
  simp only [operandOf, BitVec.getElem_extractLsb', getLsbD_wordNnn, Nat.zero_add, if_pos hk,
    BitVec.getLsbD_eq_getElem hk]

@[simp] theorem kkOf_wordNnn (f : BitVec 4) (nnn : Operand) :
    kkOf (wordNnn f nnn) = nnn.extractLsb' 0 8 := by
  ext k hk
  simp only [kkOf, BitVec.getElem_extractLsb', getLsbD_wordNnn, Nat.zero_add]
  rw [if_pos (by omega)]

@[simp] theorem familyOf_wordXkk (f : BitVec 4) (x : Reg) (kk : Byte) : familyOf (wordXkk f x kk) = f :=
  familyOf_wordNnn f (nibbleOf x ++ kk)

@[simp] theorem xOf_wordXkk (f : BitVec 4) (x : Reg) (kk : Byte) : xOf (wordXkk f x kk) = x := by
  refine (congrArg BitVec.toFin (?_ : (wordXkk f x kk).extractLsb' 8 4 = nibbleOf x)).trans rfl
  ext k hk
  simp only [BitVec.getElem_extractLsb', getLsbD_wordXkk]
  rw [if_pos (by omega), if_neg (by omega), Nat.add_sub_cancel_left, BitVec.getLsbD_eq_getElem hk]

@[simp] theorem kkOf_wordXkk (f : BitVec 4) (x : Reg) (kk : Byte) : kkOf (wordXkk f x kk) = kk := by
  ext k hk
  simp only [kkOf, BitVec.getElem_extractLsb', getLsbD_wordXkk, Nat.zero_add]
  rw [if_pos (by omega), if_pos hk, BitVec.getLsbD_eq_getElem hk]

@[simp] theorem familyOf_wordXyn (f : BitVec 4) (x y : Reg) (n : BitVec 4) :
    familyOf (wordXyn f x y n) = f :=
  familyOf_wordNnn f (nibbleOf x ++ (nibbleOf y ++ n))

@[simp] theorem xOf_wordXyn (f : BitVec 4) (x y : Reg) (n : BitVec 4) : xOf (wordXyn f x y n) = x :=
  xOf_wordXkk f x (nibbleOf y ++ n)

@[simp] theorem yOf_wordXyn (f : BitVec 4) (x y : Reg) (n : BitVec 4) : yOf (wordXyn f x y n) = y := by
  refine (congrArg BitVec.toFin (?_ : (wordXyn f x y n).extractLsb' 4 4 = nibbleOf y)).trans rfl
  ext k hk
  simp only [BitVec.getElem_extractLsb', getLsbD_wordXyn]
  rw [if_pos (by omega), if_pos (by omega), if_neg (by omega), Nat.add_sub_cancel_left,
    BitVec.getLsbD_eq_getElem hk]

@[simp] theorem nOf_wordXyn (f : BitVec 4) (x y : Reg) (n : BitVec 4) : nOf (wordXyn f x y n) = n := by
  ext k hk
  simp only [nOf, BitVec.getElem_extractLsb', getLsbD_wordXyn, Nat.zero_add]
  rw [if_pos (by omega), if_pos (by omega), if_pos hk, BitVec.getLsbD_eq_getElem hk]

/-- A word put together from its two bytes (R56). -/
@[simp] theorem wordOfBytes_bytes (w : Word) : wordOfBytes (highByte w) (lowByte w) = w := by
  apply BitVec.eq_of_getLsbD_eq
  intro k hk
  rw [getLsbD_wordOfBytes]
  split_ifs with h
  · simp [lowByte, h]
  · simp only [highByte, BitVec.getLsbD_extractLsb']
    rw [show 8 + (k - 8) = k by omega]; simp; omega

@[simp] theorem highByte_wordOfBytes (hi lo : Byte) : highByte (wordOfBytes hi lo) = hi := by
  ext k hk
  simp only [highByte, BitVec.getElem_extractLsb', getLsbD_wordOfBytes]
  rw [if_neg (by omega), Nat.add_sub_cancel_left, BitVec.getLsbD_eq_getElem hk]

@[simp] theorem lowByte_wordOfBytes (hi lo : Byte) : lowByte (wordOfBytes hi lo) = lo := by
  ext k hk
  simp only [lowByte, BitVec.getElem_extractLsb', getLsbD_wordOfBytes, Nat.zero_add]
  rw [if_pos hk, BitVec.getLsbD_eq_getElem hk]

/-- A word is the one its fields make: family and operand. -/
theorem wordNnn_fields (w : Word) : wordNnn (familyOf w) (operandOf w) = w := by
  apply BitVec.eq_of_getLsbD_eq
  intro k hk
  rw [getLsbD_wordNnn]
  split_ifs with h
  · simp [operandOf, h]
  · simp only [familyOf, BitVec.getLsbD_extractLsb']
    rw [show 12 + (k - 12) = k by omega]; simp; omega

/-- A word is the one its fields make: family, x and kk. -/
theorem wordXkk_fields (w : Word) : wordXkk (familyOf w) (xOf w) (kkOf w) = w := by
  apply BitVec.eq_of_getLsbD_eq
  intro k hk
  rw [getLsbD_wordXkk]
  have hx : nibbleOf (xOf w) = w.extractLsb' 8 4 := rfl
  split_ifs with h h'
  · simp [kkOf, h']
  · rw [hx, BitVec.getLsbD_extractLsb', show 8 + (k - 8) = k by omega]; simp; omega
  · simp only [familyOf, BitVec.getLsbD_extractLsb']
    rw [show 12 + (k - 12) = k by omega]; simp; omega

/-- A word is the one its fields make: family, x, y and n. -/
theorem wordXyn_fields (w : Word) : wordXyn (familyOf w) (xOf w) (yOf w) (nOf w) = w := by
  apply BitVec.eq_of_getLsbD_eq
  intro k hk
  rw [getLsbD_wordXyn]
  have hx : nibbleOf (xOf w) = w.extractLsb' 8 4 := rfl
  have hy : nibbleOf (yOf w) = w.extractLsb' 4 4 := rfl
  split_ifs with h h' h''
  · simp [nOf, h'']
  · rw [hy, BitVec.getLsbD_extractLsb', show 4 + (k - 4) = k by omega]; simp; omega
  · rw [hx, BitVec.getLsbD_extractLsb', show 8 + (k - 8) = k by omega]; simp; omega
  · simp only [familyOf, BitVec.getLsbD_extractLsb']
    rw [show 12 + (k - 12) = k by omega]; simp; omega

end Sys2Proof
end

