-- ==== Sys2Proof/Laws/State.lean ====
section
/-!
SUPPORT. One lemma per field per update of the state, each by rfl, so that no later proof unfolds a record update.
-/

namespace Sys2Proof.Machine

variable (s : State)

/-! ### setReg -/

@[simp] theorem State.setReg_v (x : Reg) (b : Byte) : (s.setReg x b).v = s.v.set x b := rfl
@[simp] theorem State.setReg_i (x : Reg) (b : Byte) : (s.setReg x b).i = s.i := rfl
@[simp] theorem State.setReg_pc (x : Reg) (b : Byte) : (s.setReg x b).pc = s.pc := rfl
@[simp] theorem State.setReg_sp (x : Reg) (b : Byte) : (s.setReg x b).sp = s.sp := rfl
@[simp] theorem State.setReg_stack (x : Reg) (b : Byte) : (s.setReg x b).stack = s.stack := rfl
@[simp] theorem State.setReg_dt (x : Reg) (b : Byte) : (s.setReg x b).dt = s.dt := rfl
@[simp] theorem State.setReg_st (x : Reg) (b : Byte) : (s.setReg x b).st = s.st := rfl
@[simp] theorem State.setReg_mem (x : Reg) (b : Byte) : (s.setReg x b).mem = s.mem := rfl
@[simp] theorem State.setReg_screen (x : Reg) (b : Byte) : (s.setReg x b).screen = s.screen := rfl
@[simp] theorem State.setReg_decOp (x : Reg) (b : Byte) : (s.setReg x b).decOp = s.decOp := rfl
@[simp] theorem State.setReg_decOperand (x : Reg) (b : Byte) : (s.setReg x b).decOperand = s.decOperand := rfl
@[simp] theorem State.setReg_prevPc (x : Reg) (b : Byte) : (s.setReg x b).prevPc = s.prevPc := rfl
@[simp] theorem State.setReg_romSize (x : Reg) (b : Byte) : (s.setReg x b).romSize = s.romSize := rfl
@[simp] theorem State.setReg_fault (x : Reg) (b : Byte) : (s.setReg x b).fault = s.fault := rfl
@[simp] theorem State.setReg_font (x : Reg) (b : Byte) : (s.setReg x b).font = s.font := rfl
@[simp] theorem State.setReg_keys (x : Reg) (b : Byte) : (s.setReg x b).keys = s.keys := rfl
@[simp] theorem State.setReg_freeze (x : Reg) (b : Byte) : (s.setReg x b).freeze = s.freeze := rfl
@[simp] theorem State.setReg_draws (x : Reg) (b : Byte) : (s.setReg x b).draws = s.draws := rfl
@[simp] theorem State.setReg_drawCount (x : Reg) (b : Byte) : (s.setReg x b).drawCount = s.drawCount := rfl

/-! ### setRegs -/

@[simp] theorem State.setRegs_v (w : Vector Byte 16) : (s.setRegs w).v = w := rfl
@[simp] theorem State.setRegs_i (w : Vector Byte 16) : (s.setRegs w).i = s.i := rfl
@[simp] theorem State.setRegs_pc (w : Vector Byte 16) : (s.setRegs w).pc = s.pc := rfl
@[simp] theorem State.setRegs_sp (w : Vector Byte 16) : (s.setRegs w).sp = s.sp := rfl
@[simp] theorem State.setRegs_stack (w : Vector Byte 16) : (s.setRegs w).stack = s.stack := rfl
@[simp] theorem State.setRegs_dt (w : Vector Byte 16) : (s.setRegs w).dt = s.dt := rfl
@[simp] theorem State.setRegs_st (w : Vector Byte 16) : (s.setRegs w).st = s.st := rfl
@[simp] theorem State.setRegs_mem (w : Vector Byte 16) : (s.setRegs w).mem = s.mem := rfl
@[simp] theorem State.setRegs_screen (w : Vector Byte 16) : (s.setRegs w).screen = s.screen := rfl
@[simp] theorem State.setRegs_decOp (w : Vector Byte 16) : (s.setRegs w).decOp = s.decOp := rfl
@[simp] theorem State.setRegs_decOperand (w : Vector Byte 16) : (s.setRegs w).decOperand = s.decOperand := rfl
@[simp] theorem State.setRegs_prevPc (w : Vector Byte 16) : (s.setRegs w).prevPc = s.prevPc := rfl
@[simp] theorem State.setRegs_romSize (w : Vector Byte 16) : (s.setRegs w).romSize = s.romSize := rfl
@[simp] theorem State.setRegs_fault (w : Vector Byte 16) : (s.setRegs w).fault = s.fault := rfl
@[simp] theorem State.setRegs_font (w : Vector Byte 16) : (s.setRegs w).font = s.font := rfl
@[simp] theorem State.setRegs_keys (w : Vector Byte 16) : (s.setRegs w).keys = s.keys := rfl
@[simp] theorem State.setRegs_freeze (w : Vector Byte 16) : (s.setRegs w).freeze = s.freeze := rfl
@[simp] theorem State.setRegs_draws (w : Vector Byte 16) : (s.setRegs w).draws = s.draws := rfl
@[simp] theorem State.setRegs_drawCount (w : Vector Byte 16) : (s.setRegs w).drawCount = s.drawCount := rfl

/-! ### setI -/

@[simp] theorem State.setI_v (a : Word) : (s.setI a).v = s.v := rfl
@[simp] theorem State.setI_i (a : Word) : (s.setI a).i = a := rfl
@[simp] theorem State.setI_pc (a : Word) : (s.setI a).pc = s.pc := rfl
@[simp] theorem State.setI_sp (a : Word) : (s.setI a).sp = s.sp := rfl
@[simp] theorem State.setI_stack (a : Word) : (s.setI a).stack = s.stack := rfl
@[simp] theorem State.setI_dt (a : Word) : (s.setI a).dt = s.dt := rfl
@[simp] theorem State.setI_st (a : Word) : (s.setI a).st = s.st := rfl
@[simp] theorem State.setI_mem (a : Word) : (s.setI a).mem = s.mem := rfl
@[simp] theorem State.setI_screen (a : Word) : (s.setI a).screen = s.screen := rfl
@[simp] theorem State.setI_decOp (a : Word) : (s.setI a).decOp = s.decOp := rfl
@[simp] theorem State.setI_decOperand (a : Word) : (s.setI a).decOperand = s.decOperand := rfl
@[simp] theorem State.setI_prevPc (a : Word) : (s.setI a).prevPc = s.prevPc := rfl
@[simp] theorem State.setI_romSize (a : Word) : (s.setI a).romSize = s.romSize := rfl
@[simp] theorem State.setI_fault (a : Word) : (s.setI a).fault = s.fault := rfl
@[simp] theorem State.setI_font (a : Word) : (s.setI a).font = s.font := rfl
@[simp] theorem State.setI_keys (a : Word) : (s.setI a).keys = s.keys := rfl
@[simp] theorem State.setI_freeze (a : Word) : (s.setI a).freeze = s.freeze := rfl
@[simp] theorem State.setI_draws (a : Word) : (s.setI a).draws = s.draws := rfl
@[simp] theorem State.setI_drawCount (a : Word) : (s.setI a).drawCount = s.drawCount := rfl

/-! ### setPc -/

@[simp] theorem State.setPc_v (a : Word) : (s.setPc a).v = s.v := rfl
@[simp] theorem State.setPc_i (a : Word) : (s.setPc a).i = s.i := rfl
@[simp] theorem State.setPc_pc (a : Word) : (s.setPc a).pc = a := rfl
@[simp] theorem State.setPc_sp (a : Word) : (s.setPc a).sp = s.sp := rfl
@[simp] theorem State.setPc_stack (a : Word) : (s.setPc a).stack = s.stack := rfl
@[simp] theorem State.setPc_dt (a : Word) : (s.setPc a).dt = s.dt := rfl
@[simp] theorem State.setPc_st (a : Word) : (s.setPc a).st = s.st := rfl
@[simp] theorem State.setPc_mem (a : Word) : (s.setPc a).mem = s.mem := rfl
@[simp] theorem State.setPc_screen (a : Word) : (s.setPc a).screen = s.screen := rfl
@[simp] theorem State.setPc_decOp (a : Word) : (s.setPc a).decOp = s.decOp := rfl
@[simp] theorem State.setPc_decOperand (a : Word) : (s.setPc a).decOperand = s.decOperand := rfl
@[simp] theorem State.setPc_prevPc (a : Word) : (s.setPc a).prevPc = s.prevPc := rfl
@[simp] theorem State.setPc_romSize (a : Word) : (s.setPc a).romSize = s.romSize := rfl
@[simp] theorem State.setPc_fault (a : Word) : (s.setPc a).fault = s.fault := rfl
@[simp] theorem State.setPc_font (a : Word) : (s.setPc a).font = s.font := rfl
@[simp] theorem State.setPc_keys (a : Word) : (s.setPc a).keys = s.keys := rfl
@[simp] theorem State.setPc_freeze (a : Word) : (s.setPc a).freeze = s.freeze := rfl
@[simp] theorem State.setPc_draws (a : Word) : (s.setPc a).draws = s.draws := rfl
@[simp] theorem State.setPc_drawCount (a : Word) : (s.setPc a).drawCount = s.drawCount := rfl

/-! ### setSp -/

@[simp] theorem State.setSp_v (b : Byte) : (s.setSp b).v = s.v := rfl
@[simp] theorem State.setSp_i (b : Byte) : (s.setSp b).i = s.i := rfl
@[simp] theorem State.setSp_pc (b : Byte) : (s.setSp b).pc = s.pc := rfl
@[simp] theorem State.setSp_sp (b : Byte) : (s.setSp b).sp = b := rfl
@[simp] theorem State.setSp_stack (b : Byte) : (s.setSp b).stack = s.stack := rfl
@[simp] theorem State.setSp_dt (b : Byte) : (s.setSp b).dt = s.dt := rfl
@[simp] theorem State.setSp_st (b : Byte) : (s.setSp b).st = s.st := rfl
@[simp] theorem State.setSp_mem (b : Byte) : (s.setSp b).mem = s.mem := rfl
@[simp] theorem State.setSp_screen (b : Byte) : (s.setSp b).screen = s.screen := rfl
@[simp] theorem State.setSp_decOp (b : Byte) : (s.setSp b).decOp = s.decOp := rfl
@[simp] theorem State.setSp_decOperand (b : Byte) : (s.setSp b).decOperand = s.decOperand := rfl
@[simp] theorem State.setSp_prevPc (b : Byte) : (s.setSp b).prevPc = s.prevPc := rfl
@[simp] theorem State.setSp_romSize (b : Byte) : (s.setSp b).romSize = s.romSize := rfl
@[simp] theorem State.setSp_fault (b : Byte) : (s.setSp b).fault = s.fault := rfl
@[simp] theorem State.setSp_font (b : Byte) : (s.setSp b).font = s.font := rfl
@[simp] theorem State.setSp_keys (b : Byte) : (s.setSp b).keys = s.keys := rfl
@[simp] theorem State.setSp_freeze (b : Byte) : (s.setSp b).freeze = s.freeze := rfl
@[simp] theorem State.setSp_draws (b : Byte) : (s.setSp b).draws = s.draws := rfl
@[simp] theorem State.setSp_drawCount (b : Byte) : (s.setSp b).drawCount = s.drawCount := rfl

/-! ### setSlot -/

@[simp] theorem State.setSlot_v (k : Nat) (a : Word) : (s.setSlot k a).v = s.v := rfl
@[simp] theorem State.setSlot_i (k : Nat) (a : Word) : (s.setSlot k a).i = s.i := rfl
@[simp] theorem State.setSlot_pc (k : Nat) (a : Word) : (s.setSlot k a).pc = s.pc := rfl
@[simp] theorem State.setSlot_sp (k : Nat) (a : Word) : (s.setSlot k a).sp = s.sp := rfl
@[simp] theorem State.setSlot_stack (k : Nat) (a : Word) : (s.setSlot k a).stack = s.stack.setIfInBounds k a := rfl
@[simp] theorem State.setSlot_dt (k : Nat) (a : Word) : (s.setSlot k a).dt = s.dt := rfl
@[simp] theorem State.setSlot_st (k : Nat) (a : Word) : (s.setSlot k a).st = s.st := rfl
@[simp] theorem State.setSlot_mem (k : Nat) (a : Word) : (s.setSlot k a).mem = s.mem := rfl
@[simp] theorem State.setSlot_screen (k : Nat) (a : Word) : (s.setSlot k a).screen = s.screen := rfl
@[simp] theorem State.setSlot_decOp (k : Nat) (a : Word) : (s.setSlot k a).decOp = s.decOp := rfl
@[simp] theorem State.setSlot_decOperand (k : Nat) (a : Word) : (s.setSlot k a).decOperand = s.decOperand := rfl
@[simp] theorem State.setSlot_prevPc (k : Nat) (a : Word) : (s.setSlot k a).prevPc = s.prevPc := rfl
@[simp] theorem State.setSlot_romSize (k : Nat) (a : Word) : (s.setSlot k a).romSize = s.romSize := rfl
@[simp] theorem State.setSlot_fault (k : Nat) (a : Word) : (s.setSlot k a).fault = s.fault := rfl
@[simp] theorem State.setSlot_font (k : Nat) (a : Word) : (s.setSlot k a).font = s.font := rfl
@[simp] theorem State.setSlot_keys (k : Nat) (a : Word) : (s.setSlot k a).keys = s.keys := rfl
@[simp] theorem State.setSlot_freeze (k : Nat) (a : Word) : (s.setSlot k a).freeze = s.freeze := rfl
@[simp] theorem State.setSlot_draws (k : Nat) (a : Word) : (s.setSlot k a).draws = s.draws := rfl
@[simp] theorem State.setSlot_drawCount (k : Nat) (a : Word) : (s.setSlot k a).drawCount = s.drawCount := rfl

/-! ### setDt -/

@[simp] theorem State.setDt_v (b : Byte) : (s.setDt b).v = s.v := rfl
@[simp] theorem State.setDt_i (b : Byte) : (s.setDt b).i = s.i := rfl
@[simp] theorem State.setDt_pc (b : Byte) : (s.setDt b).pc = s.pc := rfl
@[simp] theorem State.setDt_sp (b : Byte) : (s.setDt b).sp = s.sp := rfl
@[simp] theorem State.setDt_stack (b : Byte) : (s.setDt b).stack = s.stack := rfl
@[simp] theorem State.setDt_dt (b : Byte) : (s.setDt b).dt = b := rfl
@[simp] theorem State.setDt_st (b : Byte) : (s.setDt b).st = s.st := rfl
@[simp] theorem State.setDt_mem (b : Byte) : (s.setDt b).mem = s.mem := rfl
@[simp] theorem State.setDt_screen (b : Byte) : (s.setDt b).screen = s.screen := rfl
@[simp] theorem State.setDt_decOp (b : Byte) : (s.setDt b).decOp = s.decOp := rfl
@[simp] theorem State.setDt_decOperand (b : Byte) : (s.setDt b).decOperand = s.decOperand := rfl
@[simp] theorem State.setDt_prevPc (b : Byte) : (s.setDt b).prevPc = s.prevPc := rfl
@[simp] theorem State.setDt_romSize (b : Byte) : (s.setDt b).romSize = s.romSize := rfl
@[simp] theorem State.setDt_fault (b : Byte) : (s.setDt b).fault = s.fault := rfl
@[simp] theorem State.setDt_font (b : Byte) : (s.setDt b).font = s.font := rfl
@[simp] theorem State.setDt_keys (b : Byte) : (s.setDt b).keys = s.keys := rfl
@[simp] theorem State.setDt_freeze (b : Byte) : (s.setDt b).freeze = s.freeze := rfl
@[simp] theorem State.setDt_draws (b : Byte) : (s.setDt b).draws = s.draws := rfl
@[simp] theorem State.setDt_drawCount (b : Byte) : (s.setDt b).drawCount = s.drawCount := rfl

/-! ### setSt -/

@[simp] theorem State.setSt_v (b : Byte) : (s.setSt b).v = s.v := rfl
@[simp] theorem State.setSt_i (b : Byte) : (s.setSt b).i = s.i := rfl
@[simp] theorem State.setSt_pc (b : Byte) : (s.setSt b).pc = s.pc := rfl
@[simp] theorem State.setSt_sp (b : Byte) : (s.setSt b).sp = s.sp := rfl
@[simp] theorem State.setSt_stack (b : Byte) : (s.setSt b).stack = s.stack := rfl
@[simp] theorem State.setSt_dt (b : Byte) : (s.setSt b).dt = s.dt := rfl
@[simp] theorem State.setSt_st (b : Byte) : (s.setSt b).st = b := rfl
@[simp] theorem State.setSt_mem (b : Byte) : (s.setSt b).mem = s.mem := rfl
@[simp] theorem State.setSt_screen (b : Byte) : (s.setSt b).screen = s.screen := rfl
@[simp] theorem State.setSt_decOp (b : Byte) : (s.setSt b).decOp = s.decOp := rfl
@[simp] theorem State.setSt_decOperand (b : Byte) : (s.setSt b).decOperand = s.decOperand := rfl
@[simp] theorem State.setSt_prevPc (b : Byte) : (s.setSt b).prevPc = s.prevPc := rfl
@[simp] theorem State.setSt_romSize (b : Byte) : (s.setSt b).romSize = s.romSize := rfl
@[simp] theorem State.setSt_fault (b : Byte) : (s.setSt b).fault = s.fault := rfl
@[simp] theorem State.setSt_font (b : Byte) : (s.setSt b).font = s.font := rfl
@[simp] theorem State.setSt_keys (b : Byte) : (s.setSt b).keys = s.keys := rfl
@[simp] theorem State.setSt_freeze (b : Byte) : (s.setSt b).freeze = s.freeze := rfl
@[simp] theorem State.setSt_draws (b : Byte) : (s.setSt b).draws = s.draws := rfl
@[simp] theorem State.setSt_drawCount (b : Byte) : (s.setSt b).drawCount = s.drawCount := rfl

/-! ### setMem -/

@[simp] theorem State.setMem_v (m : List Host.Cell) : (s.setMem m).v = s.v := rfl
@[simp] theorem State.setMem_i (m : List Host.Cell) : (s.setMem m).i = s.i := rfl
@[simp] theorem State.setMem_pc (m : List Host.Cell) : (s.setMem m).pc = s.pc := rfl
@[simp] theorem State.setMem_sp (m : List Host.Cell) : (s.setMem m).sp = s.sp := rfl
@[simp] theorem State.setMem_stack (m : List Host.Cell) : (s.setMem m).stack = s.stack := rfl
@[simp] theorem State.setMem_dt (m : List Host.Cell) : (s.setMem m).dt = s.dt := rfl
@[simp] theorem State.setMem_st (m : List Host.Cell) : (s.setMem m).st = s.st := rfl
@[simp] theorem State.setMem_mem (m : List Host.Cell) : (s.setMem m).mem = m := rfl
@[simp] theorem State.setMem_screen (m : List Host.Cell) : (s.setMem m).screen = s.screen := rfl
@[simp] theorem State.setMem_decOp (m : List Host.Cell) : (s.setMem m).decOp = s.decOp := rfl
@[simp] theorem State.setMem_decOperand (m : List Host.Cell) : (s.setMem m).decOperand = s.decOperand := rfl
@[simp] theorem State.setMem_prevPc (m : List Host.Cell) : (s.setMem m).prevPc = s.prevPc := rfl
@[simp] theorem State.setMem_romSize (m : List Host.Cell) : (s.setMem m).romSize = s.romSize := rfl
@[simp] theorem State.setMem_fault (m : List Host.Cell) : (s.setMem m).fault = s.fault := rfl
@[simp] theorem State.setMem_font (m : List Host.Cell) : (s.setMem m).font = s.font := rfl
@[simp] theorem State.setMem_keys (m : List Host.Cell) : (s.setMem m).keys = s.keys := rfl
@[simp] theorem State.setMem_freeze (m : List Host.Cell) : (s.setMem m).freeze = s.freeze := rfl
@[simp] theorem State.setMem_draws (m : List Host.Cell) : (s.setMem m).draws = s.draws := rfl
@[simp] theorem State.setMem_drawCount (m : List Host.Cell) : (s.setMem m).drawCount = s.drawCount := rfl

/-! ### setScreen -/

@[simp] theorem State.setScreen_v (c : List Host.Cell) : (s.setScreen c).v = s.v := rfl
@[simp] theorem State.setScreen_i (c : List Host.Cell) : (s.setScreen c).i = s.i := rfl
@[simp] theorem State.setScreen_pc (c : List Host.Cell) : (s.setScreen c).pc = s.pc := rfl
@[simp] theorem State.setScreen_sp (c : List Host.Cell) : (s.setScreen c).sp = s.sp := rfl
@[simp] theorem State.setScreen_stack (c : List Host.Cell) : (s.setScreen c).stack = s.stack := rfl
@[simp] theorem State.setScreen_dt (c : List Host.Cell) : (s.setScreen c).dt = s.dt := rfl
@[simp] theorem State.setScreen_st (c : List Host.Cell) : (s.setScreen c).st = s.st := rfl
@[simp] theorem State.setScreen_mem (c : List Host.Cell) : (s.setScreen c).mem = s.mem := rfl
@[simp] theorem State.setScreen_screen (c : List Host.Cell) : (s.setScreen c).screen = c := rfl
@[simp] theorem State.setScreen_decOp (c : List Host.Cell) : (s.setScreen c).decOp = s.decOp := rfl
@[simp] theorem State.setScreen_decOperand (c : List Host.Cell) : (s.setScreen c).decOperand = s.decOperand := rfl
@[simp] theorem State.setScreen_prevPc (c : List Host.Cell) : (s.setScreen c).prevPc = s.prevPc := rfl
@[simp] theorem State.setScreen_romSize (c : List Host.Cell) : (s.setScreen c).romSize = s.romSize := rfl
@[simp] theorem State.setScreen_fault (c : List Host.Cell) : (s.setScreen c).fault = s.fault := rfl
@[simp] theorem State.setScreen_font (c : List Host.Cell) : (s.setScreen c).font = s.font := rfl
@[simp] theorem State.setScreen_keys (c : List Host.Cell) : (s.setScreen c).keys = s.keys := rfl
@[simp] theorem State.setScreen_freeze (c : List Host.Cell) : (s.setScreen c).freeze = s.freeze := rfl
@[simp] theorem State.setScreen_draws (c : List Host.Cell) : (s.setScreen c).draws = s.draws := rfl
@[simp] theorem State.setScreen_drawCount (c : List Host.Cell) : (s.setScreen c).drawCount = s.drawCount := rfl

/-! ### setDecoded -/

@[simp] theorem State.setDecoded_v (d : OpIndex × Operand) : (s.setDecoded d).v = s.v := rfl
@[simp] theorem State.setDecoded_i (d : OpIndex × Operand) : (s.setDecoded d).i = s.i := rfl
@[simp] theorem State.setDecoded_pc (d : OpIndex × Operand) : (s.setDecoded d).pc = s.pc := rfl
@[simp] theorem State.setDecoded_sp (d : OpIndex × Operand) : (s.setDecoded d).sp = s.sp := rfl
@[simp] theorem State.setDecoded_stack (d : OpIndex × Operand) : (s.setDecoded d).stack = s.stack := rfl
@[simp] theorem State.setDecoded_dt (d : OpIndex × Operand) : (s.setDecoded d).dt = s.dt := rfl
@[simp] theorem State.setDecoded_st (d : OpIndex × Operand) : (s.setDecoded d).st = s.st := rfl
@[simp] theorem State.setDecoded_mem (d : OpIndex × Operand) : (s.setDecoded d).mem = s.mem := rfl
@[simp] theorem State.setDecoded_screen (d : OpIndex × Operand) : (s.setDecoded d).screen = s.screen := rfl
@[simp] theorem State.setDecoded_decOp (d : OpIndex × Operand) : (s.setDecoded d).decOp = d.1 := rfl
@[simp] theorem State.setDecoded_decOperand (d : OpIndex × Operand) : (s.setDecoded d).decOperand = d.2 := rfl
@[simp] theorem State.setDecoded_prevPc (d : OpIndex × Operand) : (s.setDecoded d).prevPc = s.prevPc := rfl
@[simp] theorem State.setDecoded_romSize (d : OpIndex × Operand) : (s.setDecoded d).romSize = s.romSize := rfl
@[simp] theorem State.setDecoded_fault (d : OpIndex × Operand) : (s.setDecoded d).fault = s.fault := rfl
@[simp] theorem State.setDecoded_font (d : OpIndex × Operand) : (s.setDecoded d).font = s.font := rfl
@[simp] theorem State.setDecoded_keys (d : OpIndex × Operand) : (s.setDecoded d).keys = s.keys := rfl
@[simp] theorem State.setDecoded_freeze (d : OpIndex × Operand) : (s.setDecoded d).freeze = s.freeze := rfl
@[simp] theorem State.setDecoded_draws (d : OpIndex × Operand) : (s.setDecoded d).draws = s.draws := rfl
@[simp] theorem State.setDecoded_drawCount (d : OpIndex × Operand) : (s.setDecoded d).drawCount = s.drawCount := rfl

/-! ### setPrevPc -/

@[simp] theorem State.setPrevPc_v (a : Word) : (s.setPrevPc a).v = s.v := rfl
@[simp] theorem State.setPrevPc_i (a : Word) : (s.setPrevPc a).i = s.i := rfl
@[simp] theorem State.setPrevPc_pc (a : Word) : (s.setPrevPc a).pc = s.pc := rfl
@[simp] theorem State.setPrevPc_sp (a : Word) : (s.setPrevPc a).sp = s.sp := rfl
@[simp] theorem State.setPrevPc_stack (a : Word) : (s.setPrevPc a).stack = s.stack := rfl
@[simp] theorem State.setPrevPc_dt (a : Word) : (s.setPrevPc a).dt = s.dt := rfl
@[simp] theorem State.setPrevPc_st (a : Word) : (s.setPrevPc a).st = s.st := rfl
@[simp] theorem State.setPrevPc_mem (a : Word) : (s.setPrevPc a).mem = s.mem := rfl
@[simp] theorem State.setPrevPc_screen (a : Word) : (s.setPrevPc a).screen = s.screen := rfl
@[simp] theorem State.setPrevPc_decOp (a : Word) : (s.setPrevPc a).decOp = s.decOp := rfl
@[simp] theorem State.setPrevPc_decOperand (a : Word) : (s.setPrevPc a).decOperand = s.decOperand := rfl
@[simp] theorem State.setPrevPc_prevPc (a : Word) : (s.setPrevPc a).prevPc = a := rfl
@[simp] theorem State.setPrevPc_romSize (a : Word) : (s.setPrevPc a).romSize = s.romSize := rfl
@[simp] theorem State.setPrevPc_fault (a : Word) : (s.setPrevPc a).fault = s.fault := rfl
@[simp] theorem State.setPrevPc_font (a : Word) : (s.setPrevPc a).font = s.font := rfl
@[simp] theorem State.setPrevPc_keys (a : Word) : (s.setPrevPc a).keys = s.keys := rfl
@[simp] theorem State.setPrevPc_freeze (a : Word) : (s.setPrevPc a).freeze = s.freeze := rfl
@[simp] theorem State.setPrevPc_draws (a : Word) : (s.setPrevPc a).draws = s.draws := rfl
@[simp] theorem State.setPrevPc_drawCount (a : Word) : (s.setPrevPc a).drawCount = s.drawCount := rfl

/-! ### setRomSize -/

@[simp] theorem State.setRomSize_v (n : Nat) : (s.setRomSize n).v = s.v := rfl
@[simp] theorem State.setRomSize_i (n : Nat) : (s.setRomSize n).i = s.i := rfl
@[simp] theorem State.setRomSize_pc (n : Nat) : (s.setRomSize n).pc = s.pc := rfl
@[simp] theorem State.setRomSize_sp (n : Nat) : (s.setRomSize n).sp = s.sp := rfl
@[simp] theorem State.setRomSize_stack (n : Nat) : (s.setRomSize n).stack = s.stack := rfl
@[simp] theorem State.setRomSize_dt (n : Nat) : (s.setRomSize n).dt = s.dt := rfl
@[simp] theorem State.setRomSize_st (n : Nat) : (s.setRomSize n).st = s.st := rfl
@[simp] theorem State.setRomSize_mem (n : Nat) : (s.setRomSize n).mem = s.mem := rfl
@[simp] theorem State.setRomSize_screen (n : Nat) : (s.setRomSize n).screen = s.screen := rfl
@[simp] theorem State.setRomSize_decOp (n : Nat) : (s.setRomSize n).decOp = s.decOp := rfl
@[simp] theorem State.setRomSize_decOperand (n : Nat) : (s.setRomSize n).decOperand = s.decOperand := rfl
@[simp] theorem State.setRomSize_prevPc (n : Nat) : (s.setRomSize n).prevPc = s.prevPc := rfl
@[simp] theorem State.setRomSize_romSize (n : Nat) : (s.setRomSize n).romSize = n := rfl
@[simp] theorem State.setRomSize_fault (n : Nat) : (s.setRomSize n).fault = s.fault := rfl
@[simp] theorem State.setRomSize_font (n : Nat) : (s.setRomSize n).font = s.font := rfl
@[simp] theorem State.setRomSize_keys (n : Nat) : (s.setRomSize n).keys = s.keys := rfl
@[simp] theorem State.setRomSize_freeze (n : Nat) : (s.setRomSize n).freeze = s.freeze := rfl
@[simp] theorem State.setRomSize_draws (n : Nat) : (s.setRomSize n).draws = s.draws := rfl
@[simp] theorem State.setRomSize_drawCount (n : Nat) : (s.setRomSize n).drawCount = s.drawCount := rfl

/-! ### setFault -/

@[simp] theorem State.setFault_v (f : Option Fault) : (s.setFault f).v = s.v := rfl
@[simp] theorem State.setFault_i (f : Option Fault) : (s.setFault f).i = s.i := rfl
@[simp] theorem State.setFault_pc (f : Option Fault) : (s.setFault f).pc = s.pc := rfl
@[simp] theorem State.setFault_sp (f : Option Fault) : (s.setFault f).sp = s.sp := rfl
@[simp] theorem State.setFault_stack (f : Option Fault) : (s.setFault f).stack = s.stack := rfl
@[simp] theorem State.setFault_dt (f : Option Fault) : (s.setFault f).dt = s.dt := rfl
@[simp] theorem State.setFault_st (f : Option Fault) : (s.setFault f).st = s.st := rfl
@[simp] theorem State.setFault_mem (f : Option Fault) : (s.setFault f).mem = s.mem := rfl
@[simp] theorem State.setFault_screen (f : Option Fault) : (s.setFault f).screen = s.screen := rfl
@[simp] theorem State.setFault_decOp (f : Option Fault) : (s.setFault f).decOp = s.decOp := rfl
@[simp] theorem State.setFault_decOperand (f : Option Fault) : (s.setFault f).decOperand = s.decOperand := rfl
@[simp] theorem State.setFault_prevPc (f : Option Fault) : (s.setFault f).prevPc = s.prevPc := rfl
@[simp] theorem State.setFault_romSize (f : Option Fault) : (s.setFault f).romSize = s.romSize := rfl
@[simp] theorem State.setFault_fault (f : Option Fault) : (s.setFault f).fault = f := rfl
@[simp] theorem State.setFault_font (f : Option Fault) : (s.setFault f).font = s.font := rfl
@[simp] theorem State.setFault_keys (f : Option Fault) : (s.setFault f).keys = s.keys := rfl
@[simp] theorem State.setFault_freeze (f : Option Fault) : (s.setFault f).freeze = s.freeze := rfl
@[simp] theorem State.setFault_draws (f : Option Fault) : (s.setFault f).draws = s.draws := rfl
@[simp] theorem State.setFault_drawCount (f : Option Fault) : (s.setFault f).drawCount = s.drawCount := rfl

/-! ### setInputs -/

@[simp] theorem State.setInputs_v (k : Vector Bool 16) (z : Bool) : (s.setInputs k z).v = s.v := rfl
@[simp] theorem State.setInputs_i (k : Vector Bool 16) (z : Bool) : (s.setInputs k z).i = s.i := rfl
@[simp] theorem State.setInputs_pc (k : Vector Bool 16) (z : Bool) : (s.setInputs k z).pc = s.pc := rfl
@[simp] theorem State.setInputs_sp (k : Vector Bool 16) (z : Bool) : (s.setInputs k z).sp = s.sp := rfl
@[simp] theorem State.setInputs_stack (k : Vector Bool 16) (z : Bool) : (s.setInputs k z).stack = s.stack := rfl
@[simp] theorem State.setInputs_dt (k : Vector Bool 16) (z : Bool) : (s.setInputs k z).dt = s.dt := rfl
@[simp] theorem State.setInputs_st (k : Vector Bool 16) (z : Bool) : (s.setInputs k z).st = s.st := rfl
@[simp] theorem State.setInputs_mem (k : Vector Bool 16) (z : Bool) : (s.setInputs k z).mem = s.mem := rfl
@[simp] theorem State.setInputs_screen (k : Vector Bool 16) (z : Bool) : (s.setInputs k z).screen = s.screen := rfl
@[simp] theorem State.setInputs_decOp (k : Vector Bool 16) (z : Bool) : (s.setInputs k z).decOp = s.decOp := rfl
@[simp] theorem State.setInputs_decOperand (k : Vector Bool 16) (z : Bool) : (s.setInputs k z).decOperand = s.decOperand := rfl
@[simp] theorem State.setInputs_prevPc (k : Vector Bool 16) (z : Bool) : (s.setInputs k z).prevPc = s.prevPc := rfl
@[simp] theorem State.setInputs_romSize (k : Vector Bool 16) (z : Bool) : (s.setInputs k z).romSize = s.romSize := rfl
@[simp] theorem State.setInputs_fault (k : Vector Bool 16) (z : Bool) : (s.setInputs k z).fault = s.fault := rfl
@[simp] theorem State.setInputs_font (k : Vector Bool 16) (z : Bool) : (s.setInputs k z).font = s.font := rfl
@[simp] theorem State.setInputs_keys (k : Vector Bool 16) (z : Bool) : (s.setInputs k z).keys = k := rfl
@[simp] theorem State.setInputs_freeze (k : Vector Bool 16) (z : Bool) : (s.setInputs k z).freeze = z := rfl
@[simp] theorem State.setInputs_draws (k : Vector Bool 16) (z : Bool) : (s.setInputs k z).draws = s.draws := rfl
@[simp] theorem State.setInputs_drawCount (k : Vector Bool 16) (z : Bool) : (s.setInputs k z).drawCount = s.drawCount := rfl

/-! ### dropDraw -/

@[simp] theorem State.dropDraw_v : (s.dropDraw).v = s.v := rfl
@[simp] theorem State.dropDraw_i : (s.dropDraw).i = s.i := rfl
@[simp] theorem State.dropDraw_pc : (s.dropDraw).pc = s.pc := rfl
@[simp] theorem State.dropDraw_sp : (s.dropDraw).sp = s.sp := rfl
@[simp] theorem State.dropDraw_stack : (s.dropDraw).stack = s.stack := rfl
@[simp] theorem State.dropDraw_dt : (s.dropDraw).dt = s.dt := rfl
@[simp] theorem State.dropDraw_st : (s.dropDraw).st = s.st := rfl
@[simp] theorem State.dropDraw_mem : (s.dropDraw).mem = s.mem := rfl
@[simp] theorem State.dropDraw_screen : (s.dropDraw).screen = s.screen := rfl
@[simp] theorem State.dropDraw_decOp : (s.dropDraw).decOp = s.decOp := rfl
@[simp] theorem State.dropDraw_decOperand : (s.dropDraw).decOperand = s.decOperand := rfl
@[simp] theorem State.dropDraw_prevPc : (s.dropDraw).prevPc = s.prevPc := rfl
@[simp] theorem State.dropDraw_romSize : (s.dropDraw).romSize = s.romSize := rfl
@[simp] theorem State.dropDraw_fault : (s.dropDraw).fault = s.fault := rfl
@[simp] theorem State.dropDraw_font : (s.dropDraw).font = s.font := rfl
@[simp] theorem State.dropDraw_keys : (s.dropDraw).keys = s.keys := rfl
@[simp] theorem State.dropDraw_freeze : (s.dropDraw).freeze = s.freeze := rfl
@[simp] theorem State.dropDraw_draws : (s.dropDraw).draws = s.draws.tail := rfl
@[simp] theorem State.dropDraw_drawCount : (s.dropDraw).drawCount = s.drawCount + 1 := rfl

end Sys2Proof.Machine
end

