-- ==== Sys2Proof/Laws/Ops.lean ====
section
/-!
SUPPORT. One lemma per shared operation, saying everything it does, for proofs to cite instead of unfolding it.
-/

namespace Sys2Proof.Machine

variable (s : State)

/-! ## Registers -/

@[simp] theorem State.reg_setReg (x y : Reg) (b : Byte) :
    (s.setReg x b).reg y = if y = x then b else s.reg y := by
  simp only [State.reg, State.setReg_v, Fin.getElem_fin, Vector.getElem_set, Fin.ext_iff, eq_comm]

@[simp] theorem State.reg_setFlag (y : Reg) (b : Byte) :
    (s.setFlag b).reg y = if y = Config.flagReg then b else s.reg y := State.reg_setReg s _ _ _

/-- The result and the flag: VF holds the flag even when VF is the destination (R22, R170). -/
@[simp] theorem State.reg_setResultAndFlag (x y : Reg) (result flag : Byte) :
    (s.setResultAndFlag x result flag).reg y =
      if y = Config.flagReg then flag else if y = x then result else s.reg y := by
  simp [State.setResultAndFlag]

theorem State.reg_of_v {s t : State} (h : t.v = s.v) (k : Reg) : t.reg k = s.reg k := by
  simp only [State.reg, h]

theorem State.reg_regsLoaded (x k : Reg) :
    (s.setRegs (s.regsLoaded x)).reg k = if k ≤ x then s.readByte (s.i.toNat + k.val) else s.reg k := by
  simp [State.reg, State.setRegs, State.regsLoaded]

/-! ## Memory -/

/-- A byte read after a byte written. -/
@[simp] theorem State.readByte_writeByte (a a' : Nat) (b : Byte) :
    (s.writeByte a b).readByte a' = if a' = a then b else s.readByte a' := by
  simp [State.writeByte, State.readByte]

theorem State.readByte_of_mem {s t : State} (hm : t.mem = s.mem) (hf : t.font = s.font) (a : Nat) :
    t.readByte a = s.readByte a := by simp only [State.readByte, hm, hf]

/-- `writeBytes` changes only the stored cells of memory. -/
theorem State.writeBytes_eq_setMem (a : Nat) (bs : List Byte) :
    ∃ m, s.writeBytes a bs = s.setMem m := by
  induction bs generalizing s a with
  | nil => exact ⟨s.mem, rfl⟩
  | cons b rest ih =>
    obtain ⟨m, hm⟩ := ih (s.writeByte a b) (a + 1)
    exact ⟨m, hm⟩

/-- A byte read after bytes written at `a` and upwards. -/
theorem State.readByte_writeBytes (a : Nat) (bs : List Byte) (a' : Nat) :
    (s.writeBytes a bs).readByte a' =
      if h : a ≤ a' ∧ a' < a + bs.length then bs[a' - a]'(by omega) else s.readByte a' := by
  induction bs generalizing s a with
  | nil => simp only [State.writeBytes, List.length_nil]; rw [dif_neg (by omega)]
  | cons b rest ih =>
    simp only [State.writeBytes, ih, State.readByte_writeByte, List.length_cons]
    by_cases h1 : a' = a
    · subst h1
      rw [dif_neg (by omega), if_pos rfl, dif_pos (by omega)]
      simp
    · by_cases h2 : a + 1 ≤ a' ∧ a' < a + 1 + rest.length
      · rw [dif_pos h2, dif_pos (by omega)]
        obtain ⟨k, rfl⟩ : ∃ k, a' = a + 1 + k := ⟨a' - (a + 1), by omega⟩
        simp [show a + 1 + k - a = k + 1 by omega]
      · rw [dif_neg h2, if_neg h1, dif_neg (by omega)]

/-- A byte written inside the address space keeps the canonical form of memory. -/
theorem Memory.wf_writeByte {a : Nat} {b : Byte} (h : Memory.wf s.font s.mem = true) (ha : a < 4096) :
    Memory.wf (s.writeByte a b).font (s.writeByte a b).mem = true :=
  Cells.wf_write _ h ha

/-- Bytes written inside the address space keep the canonical form of memory. -/
theorem Memory.wf_writeBytes {a : Nat} {bs : List Byte} (h : Memory.wf s.font s.mem = true)
    (ha : a + bs.length ≤ 4096) :
    Memory.wf (s.writeBytes a bs).font (s.writeBytes a bs).mem = true := by
  induction bs generalizing s a with
  | nil => exact h
  | cons b rest ih =>
    simp only [List.length_cons] at ha
    exact ih (s.writeByte a b) (Memory.wf_writeByte s h (by omega)) (by omega)

/-- The access check passes exactly when every byte lies in the address space. -/
theorem accessFault_eq_none (first count : Nat) :
    accessFault first count = none ↔ count = 0 ∨ first + count ≤ 4096 := by
  unfold accessFault Config.memSize
  split_ifs with h <;> simp <;> omega

/-- What the access check answers otherwise. -/
theorem accessFault_eq_some (first count : Nat) (r : Fault) :
    accessFault first count = some r ↔
      1 ≤ count ∧ 4096 < first + count ∧ r = .memOutOfRange (max first 4096) := by
  unfold accessFault Config.memSize
  split_ifs with h
  · simp only [Option.some.injEq]
    exact ⟨fun e => ⟨h.1, by omega, e.symm⟩, fun e => e.2.2.symm⟩
  · simp only [false_iff]
    intro e; exact h ⟨e.1, by omega⟩

/-- Everything a guarded access can answer. -/
theorem guardAccess_cases (first count : Nat) (next : State) :
    ((count = 0 ∨ first + count ≤ 4096) ∧ guardAccess first count next = .next next) ∨
    (1 ≤ count ∧ 4096 < first + count ∧
      guardAccess first count next = .fault (.memOutOfRange (max first 4096))) := by
  cases h : accessFault first count with
  | none => exact .inl ⟨(accessFault_eq_none _ _).mp h, by simp [guardAccess, h]⟩
  | some r =>
    obtain ⟨h1, h2, h3⟩ := (accessFault_eq_some _ _ _).mp h
    exact .inr ⟨h1, h2, by simp [guardAccess, h, h3, raiseFault]⟩

/-- If a guarded access answers next, it answers the given state and every byte lay in the address space. -/
theorem guardAccess_next {first count : Nat} {next t : State} (h : guardAccess first count next = .next t) :
    t = next ∧ (count = 0 ∨ first + count ≤ 4096) := by
  rcases guardAccess_cases first count next with ⟨h1, h2⟩ | ⟨_, _, h2⟩ <;> rw [h2] at h
  · injection h with h; exact ⟨h.symm, h1⟩
  · cases h

/-! ## The screen -/

/-- A cell read after a cell written. -/
@[simp] theorem Screen.read_write (c : List Host.Cell) (j j' : Nat) (b : Byte) :
    Screen.read (Screen.write c j b) j' = if j' = j then b else Screen.read c j' :=
  Cells.read_write _ _ _ _ _

/-- A cell written inside the buffer keeps the canonical form of the screen. -/
theorem Screen.wf_write {c : List Host.Cell} {j : Nat} {b : Byte} (h : Screen.wf c = true) (hj : j < 2048) :
    Screen.wf (Screen.write c j b) = true :=
  Cells.wf_write _ h hj

/-- Every pixel of a sprite lies inside the buffer. -/
theorem pixelIndex_lt (xs ys : Byte) (r c : Nat) : pixelIndex xs ys r c < 2048 :=
  Nat.mod_lt _ (by decide)

theorem mem_rowPixels {xs ys : Byte} {r : Nat} {b : Byte} {j : Nat} :
    j ∈ rowPixels xs ys r b ↔ ∃ c < 8, spriteBit b c = true ∧ pixelIndex xs ys r c = j := by
  simp [rowPixels, and_assoc]

/-- The cells a sprite draws: one for each set bit. -/
theorem mem_spritePixels {xs ys : Byte} {r0 : Nat} {bs : List Byte} {j : Nat} :
    j ∈ spritePixels xs ys r0 bs ↔
      ∃ r, ∃ h : r < bs.length, ∃ c < 8, spriteBit bs[r] c = true ∧ pixelIndex xs ys (r0 + r) c = j := by
  induction bs generalizing r0 with
  | nil => simp [spritePixels]
  | cons b rest ih =>
    simp only [spritePixels, List.mem_append, mem_rowPixels, ih]
    constructor
    · rintro (⟨c, hc, hb, hj⟩ | ⟨r, hr, c, hc, hb, hj⟩)
      · exact ⟨0, by simp, c, hc, by simpa using hb, by simpa using hj⟩
      · exact ⟨r + 1, by simpa using hr, c, hc, by simpa using hb, by rw [← hj]; congr 1; omega⟩
    · rintro ⟨r, hr, c, hc, hb, hj⟩
      cases r with
      | zero => exact .inl ⟨c, hc, by simpa using hb, by simpa using hj⟩
      | succ r =>
        exact .inr ⟨r, by simpa using hr, c, hc, by simpa using hb, by rw [← hj]; congr 1; omega⟩

/-- Drawing keeps the canonical form of the screen. -/
theorem Screen.wf_drawPixels {c : List Host.Cell} {js : List Nat} (h : Screen.wf c = true)
    (hj : ∀ j ∈ js, j < 2048) : Screen.wf (drawPixels c js).1 = true := by
  unfold drawPixels
  suffices H : ∀ acc : List Host.Cell × Bool, Screen.wf acc.1 = true →
      Screen.wf (js.foldl drawPixel acc).1 = true from H (c, false) h
  induction js with
  | nil => exact fun acc h => h
  | cons j rest ih =>
    intro acc hacc
    exact ih (fun k hk => hj k (List.mem_cons_of_mem _ hk)) _ (Screen.wf_write hacc (hj j List.mem_cons_self))

/-! ## The program counter, the timers and the draws -/

@[simp] theorem State.jump_pc (t : Word) : (s.jump t).pc = t - 2 := rfl

theorem State.skipIf_eq (c : Bool) : s.skipIf c = s.setPc (if c then s.pc + 2 else s.pc) := by
  cases c <;> rfl

@[simp] theorem State.endStep_pc (pc0 : Word) : (s.endStep pc0).pc = s.pc + 2 := rfl

theorem satSub_toNat (t : Byte) (d : Nat) : (satSub t d).toNat = t.toNat - d := by
  unfold satSub
  split_ifs with h
  · simp [h]
  · have := t.isLt
    simp only [BitVec.toNat_ofNat]
    omega

/-- The decay changes DT and ST only. -/
theorem State.decayTimers_eq :
    s.decayTimers = (s.setDt (if s.freeze then s.dt else satSub s.dt s.draw.tdec)).setSt
      (if s.freeze then s.st else satSub s.st s.draw.tdec) := by
  unfold State.decayTimers
  split_ifs <;> rfl

/-- The chosen slot is a pressed one. -/
theorem chosenSlot_pressed {keys : Vector Bool 16} {d k : Fin 16} (h : chosenSlot keys d = some k) :
    keys[k] = true := by
  unfold chosenSlot at h
  split_ifs at h with hd
  · injection h with h; rwa [← h]
  · simpa using List.find?_some h

/-- No slot is chosen exactly when no key is pressed. -/
theorem chosenSlot_eq_none {keys : Vector Bool 16} {d : Fin 16} :
    chosenSlot keys d = none ↔ ∀ k : Fin 16, keys[k] = false := by
  unfold chosenSlot
  split_ifs with hd
  · simp only [false_iff]
    intro h; rw [h d] at hd; cases hd
  · simp

/-- A drawn slot that is pressed is the chosen one: the draw admits every pressed slot. -/
theorem chosenSlot_drawn {keys : Vector Bool 16} {d : Fin 16} (h : keys[d] = true) :
    chosenSlot keys d = some d := by
  unfold chosenSlot; rw [if_pos h]

/-! ## Flags -/

theorem carryFlag_eq (a b : Byte) : carryFlag a b = if 255 < a.toNat + b.toNat then 1#8 else 0#8 := by
  simp [carryFlag, boolByte]

theorem noBorrowFlag_eq (a b : Byte) : noBorrowFlag a b = if b.toNat < a.toNat then 1#8 else 0#8 := by
  simp [noBorrowFlag, boolByte]

/-! ## Fetch -/

/-- Everything a fetch can answer. -/
theorem State.fetch_cases :
    (s.pc.toNat + 1 < 4096 ∧ s.fetch = .ok (s.fetch16 s.pc.toNat)) ∨
    (4096 ≤ s.pc.toNat + 1 ∧ s.fetch = .error (.memOutOfRange (max s.pc.toNat 4096))) := by
  unfold State.fetch
  cases h : accessFault s.pc.toNat 2 with
  | none =>
    have := (accessFault_eq_none _ _).mp h
    exact .inl ⟨by omega, rfl⟩
  | some r =>
    obtain ⟨_, h2, h3⟩ := (accessFault_eq_some _ _ _).mp h
    exact .inr ⟨by omega, by simp [h3]⟩

end Sys2Proof.Machine
end

