-- ==== Sys2Proof/Laws/Step.lean ====
section
/-!
SUPPORT. What a step can answer, said once: inversion lemmas for the step and for the meanings that can fault.
-/

namespace Sys2Proof.Machine

variable {s t : State}

/-- A step that goes on: no fault was pending, the word lay in memory, and the execute phase went on. -/
theorem step_next (h : step s = .next t) :
    s.fault = none ∧ s.pc.toNat + 1 < 4096 ∧
      ∃ u, exec (decodeWord (s.fetch16 s.pc.toNat)) (s.beginStep (s.fetch16 s.pc.toNat)) = .next u ∧
        t = u.endStep s.pc := by
  unfold step at h
  cases hf : s.fault with
  | some r => simp [hf] at h
  | none =>
    simp only [hf] at h
    rcases s.fetch_cases with ⟨hp, he⟩ | ⟨_, he⟩ <;> rw [he] at h
    · simp only [runWord] at h
      cases hx : exec (decodeWord (s.fetch16 s.pc.toNat)) (s.beginStep (s.fetch16 s.pc.toNat)) with
      | next u => rw [hx] at h; injection h with h; exact ⟨rfl, hp, u, rfl, h.symm⟩
      | fault r => rw [hx] at h; cases h
      | refused r => rw [hx] at h; cases h
    · cases h

/-- A step without a pending fault, at a word in memory, is its execute phase between its two other parts. -/
theorem step_of_fetchable (hf : s.fault = none) (hp : s.pc.toNat + 1 < 4096) :
    step s = runWord s (s.fetch16 s.pc.toNat) := by
  unfold step
  rcases s.fetch_cases with ⟨_, he⟩ | ⟨h, _⟩
  · rw [hf, he]
  · omega

/-- A step without a pending fault, at no word in memory. -/
theorem step_of_not_fetchable (hf : s.fault = none) (hp : 4096 ≤ s.pc.toNat + 1) :
    step s = .fault (.memOutOfRange (max s.pc.toNat 4096)) := by
  unfold step
  rcases s.fetch_cases with ⟨h, _⟩ | ⟨_, he⟩
  · omega
  · rw [hf, he]

/-- What precedes execute keeps everything but the timers and the decoder state. -/
theorem State.beginStep_eq (w : Word) :
    s.beginStep w = ((s.setDt (if s.freeze then s.dt else satSub s.dt s.draw.tdec)).setSt
      (if s.freeze then s.st else satSub s.st s.draw.tdec)).setDecoded (decodePair w) := by
  rw [State.beginStep, State.decayTimers_eq]

@[simp] theorem State.beginStep_v (w : Word) : (s.beginStep w).v = s.v := by simp [State.beginStep_eq]
@[simp] theorem State.beginStep_reg (w : Word) (k : Reg) : (s.beginStep w).reg k = s.reg k := by
  simp [State.reg]
@[simp] theorem State.beginStep_i (w : Word) : (s.beginStep w).i = s.i := by simp [State.beginStep_eq]
@[simp] theorem State.beginStep_pc (w : Word) : (s.beginStep w).pc = s.pc := by simp [State.beginStep_eq]
@[simp] theorem State.beginStep_sp (w : Word) : (s.beginStep w).sp = s.sp := by simp [State.beginStep_eq]
@[simp] theorem State.beginStep_stack (w : Word) : (s.beginStep w).stack = s.stack := by
  simp [State.beginStep_eq]
@[simp] theorem State.beginStep_mem (w : Word) : (s.beginStep w).mem = s.mem := by simp [State.beginStep_eq]
@[simp] theorem State.beginStep_screen (w : Word) : (s.beginStep w).screen = s.screen := by
  simp [State.beginStep_eq]
@[simp] theorem State.beginStep_romSize (w : Word) : (s.beginStep w).romSize = s.romSize := by
  simp [State.beginStep_eq]
@[simp] theorem State.beginStep_fault (w : Word) : (s.beginStep w).fault = s.fault := by
  simp [State.beginStep_eq]
@[simp] theorem State.beginStep_font (w : Word) : (s.beginStep w).font = s.font := by
  simp [State.beginStep_eq]
@[simp] theorem State.beginStep_keys (w : Word) : (s.beginStep w).keys = s.keys := by
  simp [State.beginStep_eq]
@[simp] theorem State.beginStep_freeze (w : Word) : (s.beginStep w).freeze = s.freeze := by
  simp [State.beginStep_eq]
@[simp] theorem State.beginStep_draws (w : Word) : (s.beginStep w).draws = s.draws := by
  simp [State.beginStep_eq]
@[simp] theorem State.beginStep_drawCount (w : Word) : (s.beginStep w).drawCount = s.drawCount := by
  simp [State.beginStep_eq]
@[simp] theorem State.beginStep_decOp (w : Word) : (s.beginStep w).decOp = (decodePair w).1 := by
  simp [State.beginStep_eq]
@[simp] theorem State.beginStep_decOperand (w : Word) : (s.beginStep w).decOperand = (decodePair w).2 := by
  simp [State.beginStep_eq]

@[simp] theorem State.beginStep_prevPc (w : Word) : (s.beginStep w).prevPc = s.prevPc := by
  simp [State.beginStep_eq]

/-- Everything RET can answer. -/
theorem execRet_cases (s : State) :
    (∃ ret, s.slot? s.sp.toNat = some ret ∧
      execRet s = .next ((s.setPc ret).setSp (if s.sp = 0x00#8 then s.sp else s.sp - 1))) ∨
    (s.slot? s.sp.toNat = none ∧ execRet s = .fault (.stackOutOfRange s.sp)) := by
  unfold execRet
  cases h : s.slot? s.sp.toNat with
  | none => exact .inr ⟨rfl, rfl⟩
  | some ret =>
    refine .inl ⟨ret, rfl, ?_⟩
    by_cases h0 : s.sp = 0x00#8
    · simp only [if_pos h0]; rfl
    · simp only [if_neg h0]

/-- Everything CALL can answer. -/
theorem execCall_cases (nnn : Operand) (s : State) :
    ((s.sp + 1).toNat < 16 ∧
      execCall nnn s = .next (((s.setSp (s.sp + 1)).setSlot (s.sp + 1).toNat s.pc).jump (zext nnn))) ∨
    (16 ≤ (s.sp + 1).toNat ∧ execCall nnn s = .fault (.stackOverflow s.sp)) := by
  unfold execCall
  by_cases h : 16 ≤ (s.sp + 1).toNat
  · exact .inr ⟨h, by rw [if_pos h]; rfl⟩
  · exact .inl ⟨by omega, by rw [if_neg h]⟩

/-- Everything LD Vx, K can answer. -/
theorem execLdVxK_cases (x : Reg) (s : State) :
    ((∀ k : Fin 16, s.keys[k] = false) ∧ execLdVxK x s = .next s.repeatInstruction) ∨
    (∃ slot : Fin 16, s.keys[slot] = true ∧ execLdVxK x s = .next (s.setReg x keyMap[slot])) := by
  unfold execLdVxK
  cases h : chosenSlot s.keys s.draw.kslot with
  | none => exact .inl ⟨chosenSlot_eq_none.mp h, rfl⟩
  | some slot => exact .inr ⟨slot, chosenSlot_pressed h, rfl⟩

end Sys2Proof.Machine
end

