-- ==== Sys2Proof/Laws/Exec.lean ====
section
/-!
SUPPORT. What the execute phase of any instruction can do (spec/40_dispatch_and_cycle.md R114), said once for all 35.
-/

namespace Sys2Proof.Machine

/-- The fields that no execute phase writes agree. -/
structure SameFixed (s t : State) : Prop where
  decOp : t.decOp = s.decOp
  decOperand : t.decOperand = s.decOperand
  prevPc : t.prevPc = s.prevPc
  romSize : t.romSize = s.romSize
  fault : t.fault = s.fault
  font : t.font = s.font
  keys : t.keys = s.keys
  freeze : t.freeze = s.freeze
  draws : t.draws = s.draws
  drawCount : t.drawCount = s.drawCount

theorem SameFixed.refl (s : State) : SameFixed s s := ⟨rfl, rfl, rfl, rfl, rfl, rfl, rfl, rfl, rfl, rfl⟩

/-- Replacing the register file writes no fixed field. -/
theorem SameFixed.setRegs (s : State) (w : Vector Byte 16) : SameFixed s (s.setRegs w) :=
  ⟨rfl, rfl, rfl, rfl, rfl, rfl, rfl, rfl, rfl, rfl⟩

/-- Bytes written to memory write no fixed field. -/
theorem SameFixed.writeBytes (s : State) (a : Nat) (bs : List Byte) : SameFixed s (s.writeBytes a bs) := by
  obtain ⟨m, h⟩ := State.writeBytes_eq_setMem s a bs
  rw [h]
  exact ⟨rfl, rfl, rfl, rfl, rfl, rfl, rfl, rfl, rfl, rfl⟩

/-- A skip writes PC only. -/
theorem SameFixed.skipIf (s : State) (c : Bool) : SameFixed s (s.skipIf c) := by
  rw [State.skipIf_eq]
  exact ⟨rfl, rfl, rfl, rfl, rfl, rfl, rfl, rfl, rfl, rfl⟩

/-- Everything a meaning that tests a key can answer. -/
theorem execKey_cases (s : State) (b : Byte) :
    (∃ pressed, s.key? b.toNat = some pressed ∧ b.toNat < 16) ∨ (s.key? b.toNat = none ∧ 16 ≤ b.toNat) := by
  by_cases h : b.toNat < 16
  · exact .inl ⟨s.keys[b.toNat], by simp [State.key?, h], h⟩
  · exact .inr ⟨Vector.getElem?_eq_none (by omega), by omega⟩

/-- No execute phase is refused. -/
theorem exec_ne_refused (i : Instr) (s : State) (r : Refusal) : exec i s ≠ .refused r := by
  cases i <;> try (intro h; cases h)
  case ret =>
    rcases execRet_cases s with ⟨_, _, h⟩ | ⟨_, h⟩ <;> (simp only [exec, h]; intro e; cases e)
  case call nnn =>
    rcases execCall_cases nnn s with ⟨_, h⟩ | ⟨_, h⟩ <;> (simp only [exec, h]; intro e; cases e)
  case ldVxK x =>
    rcases execLdVxK_cases x s with ⟨_, h⟩ | ⟨_, _, h⟩ <;> (simp only [exec, h]; intro e; cases e)
  case skp x =>
    simp only [exec, execSkp]
    cases s.key? (s.reg x).toNat <;> (intro e; cases e)
  case sknp x =>
    simp only [exec, execSknp]
    cases s.key? (s.reg x).toNat <;> (intro e; cases e)
  case drw x y n =>
    simp only [exec, execDrw, guardAccess]
    cases accessFault s.i.toNat n.val <;> (intro e; cases e)
  case ldB x =>
    simp only [exec, execLdB, guardAccess]
    cases accessFault s.i.toNat 3 <;> (intro e; cases e)
  case ldMemVx x =>
    simp only [exec, execLdMemVx, guardAccess]
    cases accessFault s.i.toNat (x.val + 1) <;> (intro e; cases e)
  case ldVxMem x =>
    simp only [exec, execLdVxMem, guardAccess]
    cases accessFault s.i.toNat (x.val + 1) <;> (intro e; cases e)

/-- An execute phase that goes on writes no fixed field. -/
theorem exec_keeps {i : Instr} {s t : State} (h : exec i s = .next t) : SameFixed s t := by
  cases i <;> simp only [exec] at h
  case ret =>
    rcases execRet_cases s with ⟨_, _, h'⟩ | ⟨_, h'⟩ <;> rw [h'] at h <;> cases h
    exact ⟨rfl, rfl, rfl, rfl, rfl, rfl, rfl, rfl, rfl, rfl⟩
  case call nnn =>
    rcases execCall_cases nnn s with ⟨_, h'⟩ | ⟨_, h'⟩ <;> rw [h'] at h <;> cases h
    exact ⟨rfl, rfl, rfl, rfl, rfl, rfl, rfl, rfl, rfl, rfl⟩
  case ldVxK x =>
    rcases execLdVxK_cases x s with ⟨_, h'⟩ | ⟨_, _, h'⟩ <;> rw [h'] at h <;> cases h
    · exact ⟨rfl, rfl, rfl, rfl, rfl, rfl, rfl, rfl, rfl, rfl⟩
    · exact ⟨rfl, rfl, rfl, rfl, rfl, rfl, rfl, rfl, rfl, rfl⟩
  case skp x =>
    unfold execSkp at h
    cases hk : s.key? (s.reg x).toNat <;> rw [hk] at h <;> cases h
    exact SameFixed.skipIf s _
  case sknp x =>
    unfold execSknp at h
    cases hk : s.key? (s.reg x).toNat <;> rw [hk] at h <;> cases h
    exact SameFixed.skipIf s _
  case drw x y n =>
    obtain ⟨rfl, _⟩ := guardAccess_next h
    exact ⟨rfl, rfl, rfl, rfl, rfl, rfl, rfl, rfl, rfl, rfl⟩
  case ldB x =>
    obtain ⟨rfl, _⟩ := guardAccess_next h
    exact SameFixed.writeBytes s _ _
  case ldMemVx x =>
    obtain ⟨rfl, _⟩ := guardAccess_next h
    exact SameFixed.writeBytes s _ _
  case ldVxMem x =>
    obtain ⟨rfl, _⟩ := guardAccess_next h
    exact SameFixed.setRegs s _
  case seImm => cases h; exact SameFixed.skipIf s _
  case sneImm => cases h; exact SameFixed.skipIf s _
  case seReg => cases h; exact SameFixed.skipIf s _
  case sneReg => cases h; exact SameFixed.skipIf s _
  all_goals
    cases h
    exact ⟨rfl, rfl, rfl, rfl, rfl, rfl, rfl, rfl, rfl, rfl⟩

end Sys2Proof.Machine
end

