-- ==== Sys2Proof/Laws/PerInstr.lean ====
section
/-!
SUPPORT. Statements about every instruction, one lemma per constructor. Family TableRow: the word of an instruction
matches its own row of the opcode table (spec/30_encoding.md R86, R93).
-/

namespace Sys2Proof.Laws

/-- The word of `i` has the mask and match of the row with the index of `i`. -/
def TableRow.Statement (i : Instr) : Prop :=
  ∃ r ∈ opcodeRows, r.index = i.index ∧ encodeWord i &&& r.mask = r.value

namespace TableRow

theorem and_nibbleOnes (f : BitVec 4) : f &&& 0xF#4 = f := BitVec.and_allOnes

theorem and_byteOnes (b : Byte) : b &&& 0xFF#8 = b := BitVec.and_allOnes

theorem wordNnn_masked (f : BitVec 4) (nnn : Operand) : wordNnn f nnn &&& 0xF000#16 = f ++ 0x000#12 := by
  rw [show (0xF000#16 : Word) = 0xF#4 ++ 0x000#12 from rfl, wordNnn, BitVec.and_append]
  simp [and_nibbleOnes]

theorem wordXkk_masked (f : BitVec 4) (x : Reg) (kk : Byte) :
    wordXkk f x kk &&& 0xF000#16 = f ++ 0x000#12 := wordNnn_masked f (nibbleOf x ++ kk)

theorem wordXyn_masked (f : BitVec 4) (x y : Reg) (n : BitVec 4) :
    wordXyn f x y n &&& 0xF000#16 = f ++ 0x000#12 := wordNnn_masked f (nibbleOf x ++ (nibbleOf y ++ n))

theorem wordXkk_masked_sub8 (f : BitVec 4) (x : Reg) (kk : Byte) :
    wordXkk f x kk &&& 0xF0FF#16 = f ++ (0x0#4 ++ kk) := by
  rw [show (0xF0FF#16 : Word) = 0xF#4 ++ (0x0#4 ++ 0xFF#8) from rfl, wordXkk, BitVec.and_append,
    BitVec.and_append]
  simp [and_nibbleOnes, and_byteOnes]

theorem wordXyn_masked_sub (f : BitVec 4) (x y : Reg) (n : BitVec 4) :
    wordXyn f x y n &&& 0xF00F#16 = f ++ (0x0#4 ++ (0x0#4 ++ n)) := by
  rw [show (0xF00F#16 : Word) = 0xF#4 ++ (0x0#4 ++ (0x0#4 ++ 0xF#4)) from rfl, wordXyn, BitVec.and_append,
    BitVec.and_append, BitVec.and_append]
  simp [and_nibbleOnes]

theorem sys (nnn : Operand) : Statement (.sys nnn) :=
  ⟨⟨0, 0xF000, 0x0000⟩, by decide, rfl, wordNnn_masked _ _⟩

theorem cls : Statement (.cls) :=
  ⟨⟨1, 0xF0FF, 0x00E0⟩, by decide, rfl, rfl⟩

theorem ret : Statement (.ret) :=
  ⟨⟨2, 0xF0FF, 0x00EE⟩, by decide, rfl, rfl⟩

theorem jp (nnn : Operand) : Statement (.jp nnn) :=
  ⟨⟨3, 0xF000, 0x1000⟩, by decide, rfl, wordNnn_masked _ _⟩

theorem call (nnn : Operand) : Statement (.call nnn) :=
  ⟨⟨4, 0xF000, 0x2000⟩, by decide, rfl, wordNnn_masked _ _⟩

theorem seImm (x : Reg) (kk : Byte) : Statement (.seImm x kk) :=
  ⟨⟨5, 0xF000, 0x3000⟩, by decide, rfl, wordXkk_masked _ _ _⟩

theorem sneImm (x : Reg) (kk : Byte) : Statement (.sneImm x kk) :=
  ⟨⟨6, 0xF000, 0x4000⟩, by decide, rfl, wordXkk_masked _ _ _⟩

theorem seReg (x : Reg) (y : Reg) : Statement (.seReg x y) :=
  ⟨⟨7, 0xF00F, 0x5000⟩, by decide, rfl, wordXyn_masked_sub _ _ _ _⟩

theorem ldImm (x : Reg) (kk : Byte) : Statement (.ldImm x kk) :=
  ⟨⟨8, 0xF000, 0x6000⟩, by decide, rfl, wordXkk_masked _ _ _⟩

theorem addImm (x : Reg) (kk : Byte) : Statement (.addImm x kk) :=
  ⟨⟨9, 0xF000, 0x7000⟩, by decide, rfl, wordXkk_masked _ _ _⟩

theorem ldReg (x : Reg) (y : Reg) : Statement (.ldReg x y) :=
  ⟨⟨10, 0xF00F, 0x8000⟩, by decide, rfl, wordXyn_masked_sub _ _ _ _⟩

theorem or (x : Reg) (y : Reg) : Statement (.or x y) :=
  ⟨⟨11, 0xF00F, 0x8001⟩, by decide, rfl, wordXyn_masked_sub _ _ _ _⟩

theorem and (x : Reg) (y : Reg) : Statement (.and x y) :=
  ⟨⟨12, 0xF00F, 0x8002⟩, by decide, rfl, wordXyn_masked_sub _ _ _ _⟩

theorem xor (x : Reg) (y : Reg) : Statement (.xor x y) :=
  ⟨⟨13, 0xF00F, 0x8003⟩, by decide, rfl, wordXyn_masked_sub _ _ _ _⟩

theorem addReg (x : Reg) (y : Reg) : Statement (.addReg x y) :=
  ⟨⟨14, 0xF00F, 0x8004⟩, by decide, rfl, wordXyn_masked_sub _ _ _ _⟩

theorem sub (x : Reg) (y : Reg) : Statement (.sub x y) :=
  ⟨⟨15, 0xF00F, 0x8005⟩, by decide, rfl, wordXyn_masked_sub _ _ _ _⟩

theorem shr (x : Reg) (y : Reg) : Statement (.shr x y) :=
  ⟨⟨16, 0xF00F, 0x8006⟩, by decide, rfl, wordXyn_masked_sub _ _ _ _⟩

theorem subn (x : Reg) (y : Reg) : Statement (.subn x y) :=
  ⟨⟨17, 0xF00F, 0x8007⟩, by decide, rfl, wordXyn_masked_sub _ _ _ _⟩

theorem shl (x : Reg) (y : Reg) : Statement (.shl x y) :=
  ⟨⟨18, 0xF00F, 0x800E⟩, by decide, rfl, wordXyn_masked_sub _ _ _ _⟩

theorem sneReg (x : Reg) (y : Reg) : Statement (.sneReg x y) :=
  ⟨⟨19, 0xF00F, 0x9000⟩, by decide, rfl, wordXyn_masked_sub _ _ _ _⟩

theorem ldI (nnn : Operand) : Statement (.ldI nnn) :=
  ⟨⟨20, 0xF000, 0xA000⟩, by decide, rfl, wordNnn_masked _ _⟩

theorem jpV0 (nnn : Operand) : Statement (.jpV0 nnn) :=
  ⟨⟨21, 0xF000, 0xB000⟩, by decide, rfl, wordNnn_masked _ _⟩

theorem rnd (x : Reg) (kk : Byte) : Statement (.rnd x kk) :=
  ⟨⟨22, 0xF000, 0xC000⟩, by decide, rfl, wordXkk_masked _ _ _⟩

theorem drw (x : Reg) (y : Reg) (n : Fin 16) : Statement (.drw x y n) :=
  ⟨⟨23, 0xF000, 0xD000⟩, by decide, rfl, wordXyn_masked _ _ _ _⟩

theorem skp (x : Reg) : Statement (.skp x) :=
  ⟨⟨24, 0xF0FF, 0xE09E⟩, by decide, rfl, wordXkk_masked_sub8 _ _ _⟩

theorem sknp (x : Reg) : Statement (.sknp x) :=
  ⟨⟨25, 0xF0FF, 0xE0A1⟩, by decide, rfl, wordXkk_masked_sub8 _ _ _⟩

theorem ldVxDt (x : Reg) : Statement (.ldVxDt x) :=
  ⟨⟨26, 0xF0FF, 0xF007⟩, by decide, rfl, wordXkk_masked_sub8 _ _ _⟩

theorem ldVxK (x : Reg) : Statement (.ldVxK x) :=
  ⟨⟨27, 0xF0FF, 0xF00A⟩, by decide, rfl, wordXkk_masked_sub8 _ _ _⟩

theorem ldDtVx (x : Reg) : Statement (.ldDtVx x) :=
  ⟨⟨28, 0xF0FF, 0xF015⟩, by decide, rfl, wordXkk_masked_sub8 _ _ _⟩

theorem ldStVx (x : Reg) : Statement (.ldStVx x) :=
  ⟨⟨29, 0xF0FF, 0xF018⟩, by decide, rfl, wordXkk_masked_sub8 _ _ _⟩

theorem addI (x : Reg) : Statement (.addI x) :=
  ⟨⟨30, 0xF0FF, 0xF01E⟩, by decide, rfl, wordXkk_masked_sub8 _ _ _⟩

theorem ldF (x : Reg) : Statement (.ldF x) :=
  ⟨⟨31, 0xF0FF, 0xF029⟩, by decide, rfl, wordXkk_masked_sub8 _ _ _⟩

theorem ldB (x : Reg) : Statement (.ldB x) :=
  ⟨⟨32, 0xF0FF, 0xF033⟩, by decide, rfl, wordXkk_masked_sub8 _ _ _⟩

theorem ldMemVx (x : Reg) : Statement (.ldMemVx x) :=
  ⟨⟨33, 0xF0FF, 0xF055⟩, by decide, rfl, wordXkk_masked_sub8 _ _ _⟩

theorem ldVxMem (x : Reg) : Statement (.ldVxMem x) :=
  ⟨⟨34, 0xF0FF, 0xF065⟩, by decide, rfl, wordXkk_masked_sub8 _ _ _⟩

end TableRow

end Sys2Proof.Laws
end

