-- ==== Sys2Proof/Laws/Ports.lean ====
section
/-!
SUPPORT. The small laws of the ports and of the definitions of Safety.
-/

namespace Sys2Proof.Machine

/-- The size check (R294). -/
theorem validSize_iff (n : Nat) : validSize n = true ↔ 1 ≤ n ∧ n ≤ 3584 := by
  simp only [validSize, Bool.and_eq_true, decide_eq_true_eq]
  exact Iff.rfl

@[simp] theorem State.init_font (s : State) : s.init.font = s.font := rfl
@[simp] theorem State.init_mem (s : State) : s.init.mem = [] := rfl
@[simp] theorem State.init_screen (s : State) : s.init.screen = [] := rfl
@[simp] theorem State.init_fault (s : State) : s.init.fault = none := rfl

/-- After a step that goes on. -/
theorem State.afterStep_of_next {s t : State} (h : step s = .next t) : s.afterStep = t := by
  simp [State.afterStep, h]

/-- After a step that faults (R263). -/
theorem State.afterStep_of_fault {s : State} {r : Fault} (h : step s = .fault r) :
    s.afterStep = s.commitFault r := by
  simp [State.afterStep, h]

@[simp] theorem State.steps_zero (s : State) : State.steps 0 s = s := rfl

/-- With a fault pending, no number of steps changes anything (R110). -/
theorem State.steps_of_fault {s : State} {r : Fault} (h : s.fault = some r) (n : Nat) : State.steps n s = s := by
  cases n with
  | zero => rfl
  | succ n => simp [State.steps, h]

/-- Without one, the first of n + 1 steps runs. -/
theorem State.steps_succ {s : State} (h : s.fault = none) (n : Nat) :
    State.steps (n + 1) s = State.steps n s.afterStep := by
  simp [State.steps, h]

/-- Steps in sequence (R119). -/
theorem State.steps_add (m n : Nat) (s : State) : State.steps (m + n) s = State.steps n (State.steps m s) := by
  induction m generalizing s with
  | zero => simp
  | succ m ih =>
    cases h : s.fault with
    | some r => rw [State.steps_of_fault h, State.steps_of_fault h, State.steps_of_fault h]
    | none => rw [show m + 1 + n = (m + n) + 1 by omega, State.steps_succ h, State.steps_succ h, ih]

theorem State.dtDecayed_eq (s : State) (w : Word) : (s.beginStep w).dt.toNat = s.dtDecayed := by
  rw [State.beginStep_eq]
  simp only [State.setDecoded_dt, State.setSt_dt, State.setDt_dt, State.dtDecayed]
  split_ifs <;> simp [satSub_toNat]

theorem State.stDecayed_eq (s : State) (w : Word) : (s.beginStep w).st.toNat = s.stDecayed := by
  rw [State.beginStep_eq]
  simp only [State.setDecoded_st, State.setSt_st, State.stDecayed]
  split_ifs <;> simp [satSub_toNat]

/-- A state that finds a word at PC fetches it. -/
theorem State.fetch16_of_fetches {s : State} {w : Word} (h : s.fetches w) : s.fetch16 s.pc.toNat = w := by
  obtain ⟨_, _, h1, h2⟩ := h
  simp only [State.fetch16, h1, h2]
  exact wordOfBytes_bytes w

/-- The step of a state that finds a word at PC is the run of that word. -/
theorem step_of_fetches {s : State} {w : Word} (h : s.fetches w) : step s = runWord s w := by
  rw [step_of_fetchable h.1 h.2.1, State.fetch16_of_fetches h]

end Sys2Proof.Machine
end

