-- ==== Sys2Proof/Tests/Slice0.lean ====
section
/-!
SUPPORT. The model's own tests: the WellFormed smoke tests, words written out from spec/30_encoding.md R86, and single
steps whose expected results are vectors of spec/95_test_vectors.md (S, T) or worked out by hand from a rule.
-/

namespace Sys2Proof.Tests

open Sys2Proof.Machine

/-! ## WellFormed: an ill-formed term for each check -/

theorem test_sys_ending_in_cls_byte_is_ill_formed : (Instr.sys 0x1E0#12).wellFormed = false := by decide
theorem test_sys_ending_in_ret_byte_is_ill_formed : (Instr.sys 0xFEE#12).wellFormed = false := by decide
theorem test_sys_is_well_formed : (Instr.sys 0x123#12).wellFormed = true := by decide

/-! ## Decode: every constructor by a word written out bit by bit from the column "encoding" of the opcode table -/

theorem test_decode_sys : decode [0b00000001#8, 0b00100011#8] = .ok (.sys 0x123#12, []) := by decide
theorem test_decode_cls : decode [0b00000000#8, 0b11100000#8] = .ok (.cls, []) := by decide
theorem test_decode_cls_any_second_nibble : decode [0b00000001#8, 0b11100000#8] = .ok (.cls, []) := by decide
theorem test_decode_ret : decode [0b00000000#8, 0b11101110#8] = .ok (.ret, []) := by decide
theorem test_decode_ret_any_second_nibble : decode [0b00001111#8, 0b11101110#8] = .ok (.ret, []) := by decide
theorem test_decode_jp : decode [0b00010010#8, 0b00001100#8] = .ok (.jp 0x20C#12, []) := by decide
theorem test_decode_call : decode [0b00101010#8, 0b10111100#8] = .ok (.call 0xABC#12, []) := by decide
theorem test_decode_se_imm : decode [0b00110001#8, 0b01000010#8] = .ok (.seImm 1 0x42#8, []) := by decide
theorem test_decode_sne_imm : decode [0b01000010#8, 0b00000101#8] = .ok (.sneImm 2 0x05#8, []) := by decide
theorem test_decode_se_reg : decode [0b01010001#8, 0b00100000#8] = .ok (.seReg 1 2, []) := by decide
theorem test_decode_ld_imm : decode [0b01101010#8, 0b00111100#8] = .ok (.ldImm 10 0x3C#8, []) := by decide
theorem test_decode_add_imm : decode [0b01110001#8, 0b11111111#8] = .ok (.addImm 1 0xFF#8, []) := by decide
theorem test_decode_ld_reg : decode [0b10000001#8, 0b00100000#8] = .ok (.ldReg 1 2, []) := by decide
theorem test_decode_or : decode [0b10000011#8, 0b01000001#8] = .ok (.or 3 4, []) := by decide
theorem test_decode_and : decode [0b10000011#8, 0b01000010#8] = .ok (.and 3 4, []) := by decide
theorem test_decode_xor : decode [0b10000011#8, 0b01000011#8] = .ok (.xor 3 4, []) := by decide
theorem test_decode_add_reg : decode [0b10000011#8, 0b01000100#8] = .ok (.addReg 3 4, []) := by decide
theorem test_decode_sub : decode [0b10000011#8, 0b01000101#8] = .ok (.sub 3 4, []) := by decide
theorem test_decode_shr : decode [0b10000011#8, 0b01000110#8] = .ok (.shr 3 4, []) := by decide
theorem test_decode_subn : decode [0b10000011#8, 0b01000111#8] = .ok (.subn 3 4, []) := by decide
theorem test_decode_shl : decode [0b10000011#8, 0b01001110#8] = .ok (.shl 3 4, []) := by decide
theorem test_decode_sne_reg : decode [0b10010011#8, 0b01000000#8] = .ok (.sneReg 3 4, []) := by decide
theorem test_decode_ld_i : decode [0b10100011#8, 0b00000001#8] = .ok (.ldI 0x301#12, []) := by decide
theorem test_decode_jp_v0 : decode [0b10111111#8, 0b11111110#8] = .ok (.jpV0 0xFFE#12, []) := by decide
theorem test_decode_rnd : decode [0b11000011#8, 0b00001111#8] = .ok (.rnd 3 0x0F#8, []) := by decide
theorem test_decode_drw : decode [0b11010001#8, 0b00100101#8] = .ok (.drw 1 2 5, []) := by decide
theorem test_decode_skp : decode [0b11100010#8, 0b10011110#8] = .ok (.skp 2, []) := by decide
theorem test_decode_sknp : decode [0b11100010#8, 0b10100001#8] = .ok (.sknp 2, []) := by decide
theorem test_decode_ld_vx_dt : decode [0b11110001#8, 0b00000111#8] = .ok (.ldVxDt 1, []) := by decide
theorem test_decode_ld_vx_k : decode [0b11110011#8, 0b00001010#8] = .ok (.ldVxK 3, []) := by decide
theorem test_decode_ld_dt_vx : decode [0b11110001#8, 0b00010101#8] = .ok (.ldDtVx 1, []) := by decide
theorem test_decode_ld_st_vx : decode [0b11110001#8, 0b00011000#8] = .ok (.ldStVx 1, []) := by decide
theorem test_decode_add_i : decode [0b11110001#8, 0b00011110#8] = .ok (.addI 1, []) := by decide
theorem test_decode_ld_f : decode [0b11110010#8, 0b00101001#8] = .ok (.ldF 2, []) := by decide
theorem test_decode_ld_b : decode [0b11111010#8, 0b00110011#8] = .ok (.ldB 10, []) := by decide
theorem test_decode_ld_mem_vx : decode [0b11110001#8, 0b01010101#8] = .ok (.ldMemVx 1, []) := by decide
theorem test_decode_ld_vx_mem : decode [0b11110010#8, 0b01100101#8] = .ok (.ldVxMem 2, []) := by decide
theorem test_decode_rest_and_truncation :
    decode [0x00#8, 0xE0#8, 0x12#8] = .ok (.cls, [0x12#8]) ∧ decode [0x12#8] = .error .truncated := by decide

/-- T2, T4, T6, T8, T9 and T14 of section 2: the pair of R84. -/
theorem test_decode_pairs_known :
    decodePair 0x0123#16 = (0, 0x123#12) ∧ decodePair 0x01E0#16 = (1, 0x1E0#12) ∧
    decodePair 0x0FEE#16 = (2, 0xFEE#12) ∧ decodePair 0x6A3C#16 = (8, 0xA3C#12) ∧
    decodePair 0x5120#16 = (7, 0x120#12) ∧ decodePair 0x800E#16 = (18, 0x00E#12) := by decide

/-- T10, T11, T12, T13, T16, T18 and T19 of section 2: unknown words. -/
theorem test_decode_pairs_unknown :
    decodePair 0x5121#16 = (0, 0#12) ∧ decodePair 0x9121#16 = (0, 0#12) ∧ decodePair 0x8008#16 = (0, 0#12) ∧
    decodePair 0x800F#16 = (0, 0#12) ∧ decodePair 0xE000#16 = (0, 0#12) ∧ decodePair 0xF0FF#16 = (0, 0#12) ∧
    decodePair 0xFFFF#16 = (0, 0#12) := by decide

theorem test_decode_table_word : decodeTableWord 16 0xD125 = some (.drw 1 2 5) := by decide

/-! ## One step -/

/-- The reset state with a word at PC, and draws (tdec, rnd, kslot) for the step. -/
def start (w : Nat) (d : Draw := ⟨0, 0#8, 0⟩) : State := { State.reset.withFetchWord 16 w with draws := [d] }

/-- A value of the state after a step, none if the step stopped. -/
def after {α : Type} (s : State) (f : State → α) : Option α :=
  match step s with
  | .next t => some (f t)
  | .fault _ => none
  | .refused _ => none

/-- The fault of a step that stopped with one. -/
def faultOf (s : State) : Option Fault :=
  match step s with
  | .next _ => none
  | .fault r => some r
  | .refused _ => none

/-- No key but `k` is pressed. -/
def pressing (k : Fin 16) : Vector Bool 16 := (Vector.replicate 16 false).set k true

/-- T21, with the decoder fields of R141's example. -/
theorem test_sys : after (start 0x0123) (fun t => (t.pc, t.decOp, t.decOperand, t.prevPc)) =
    some (0x202#16, 0, 0x123#12, 0x200#16) := by decide

/-- T10 at PC: an unknown word advances and records (0, 0). -/
theorem test_unknown_word : after (start 0x5121) (fun t => (t.pc, t.decOp, t.decOperand)) =
    some (0x202#16, 0, 0#12) := by decide

/-- T76. -/
theorem test_cls : after { start 0x00E0 with screen := [(0, 0xFF#8), (2047, 0xFF#8)] } (fun t => t.screen) =
    some [] := by decide

/-- T22: the popped slot keeps its value. -/
theorem test_ret : after ({ start 0x00EE with sp := 1#8 }.setSlot 1 0x204#16)
    (fun t => (t.pc, t.sp, t.slot? 1)) = some (0x206#16, 0#8, some 0x204#16) := by decide

/-- T23 and T24. -/
theorem test_ret_edges : after (start 0x00EE) (fun t => (t.pc, t.sp)) = some (0x0002#16, 0#8) ∧
    faultOf { start 0x00EE with sp := 16#8 } = some (.stackOutOfRange 16#8) := by decide

/-- T26 and T27. -/
theorem test_jp : after (start 0x1200) (fun t => (t.pc, t.loopOutput)) = some (0x200#16, true) ∧
    after (start 0x1000) (fun t => (t.pc, t.loopOutput)) = some (0x000#16, false) := by decide

/-- T28 and T29. -/
theorem test_call : after (start 0x2ABC) (fun t => (t.sp, t.slot? 1, t.pc)) =
      some (1#8, some 0x200#16, 0xABC#16) ∧
    after { start 0x2ABC with sp := 14#8 } (fun t => (t.sp, t.slot? 15, t.pc)) =
      some (15#8, some 0x200#16, 0xABC#16) := by decide

/-- T30 and T31. -/
theorem test_call_edges : faultOf { start 0x2ABC with sp := 15#8 } = some (.stackOverflow 15#8) ∧
    after { start 0x2ABC with sp := 255#8 } (fun t => (t.sp, t.slot? 0, t.pc)) =
      some (0#8, some 0x200#16, 0xABC#16) := by decide

/-- T32 and T34, and T73 for the loop output. -/
theorem test_jp_v0 : after ((start 0xB300).setReg 0 0x04#8) (fun t => t.pc) = some 0x304#16 ∧
    after ((start 0xBFFF).setReg 0 0xFF#8) (fun t => faultOf t) = some (some (.memOutOfRange 0x10FE)) ∧
    after (start 0xB200) (fun t => (t.pc, t.loopOutput)) = some (0x200#16, false) := by decide

/-- T35 and T36. -/
theorem test_se_imm : after ((start 0x3142).setReg 1 0x42#8) (fun t => t.pc) = some 0x204#16 ∧
    after (start 0x3142) (fun t => t.pc) = some 0x202#16 := by decide

/-- T37 and T38. -/
theorem test_sne_imm : after (start 0x4142) (fun t => t.pc) = some 0x204#16 ∧
    after ((start 0x4142).setReg 1 0x42#8) (fun t => t.pc) = some 0x202#16 := by decide

/-- T39 and T45. -/
theorem test_se_reg : after (((start 0x5120).setReg 1 3#8).setReg 2 3#8) (fun t => t.pc) = some 0x204#16 ∧
    after ((start 0x5120).setReg 1 3#8) (fun t => t.pc) = some 0x202#16 := by decide

/-- T42 and T41. -/
theorem test_sne_reg : after (((start 0x9120).setReg 1 3#8).setReg 2 4#8) (fun t => t.pc) = some 0x204#16 ∧
    after (((start 0x9120).setReg 1 3#8).setReg 2 3#8) (fun t => t.pc) = some 0x202#16 := by decide

/-- S5 and T46. -/
theorem test_ld_imm : after (start 0x6A3C) (fun t => t.reg 0xA) = some 0x3C#8 ∧
    after (start 0x6F12) (fun t => t.reg 0xF) = some 0x12#8 := by decide

/-- T47 and T48. -/
theorem test_add_imm : after ((start 0x7FFF).setReg 0xF 1#8) (fun t => t.reg 0xF) = some 0#8 ∧
    after (((start 0x7101).setReg 1 0xFF#8).setReg 0xF 7#8) (fun t => (t.reg 1, t.reg 0xF)) =
      some (0#8, 7#8) := by decide

/-- T49. -/
theorem test_ld_reg : after (((start 0x8120).setReg 2 9#8).setReg 0xF 7#8)
    (fun t => (t.reg 1, t.reg 2, t.reg 0xF)) = some (9#8, 9#8, 7#8) := by decide

/-- T50. -/
theorem test_or : after ((((start 0x8011).setReg 0 0xF0#8).setReg 1 0x0F#8).setReg 0xF 1#8)
    (fun t => (t.reg 0, t.reg 1, t.reg 0xF)) = some (0xFF#8, 0x0F#8, 1#8) := by decide

/-- T51. -/
theorem test_and : after ((((start 0x8012).setReg 0 0xF0#8).setReg 1 0x3C#8).setReg 0xF 1#8)
    (fun t => (t.reg 0, t.reg 1, t.reg 0xF)) = some (0x30#8, 0x3C#8, 1#8) := by decide

/-- T52. -/
theorem test_xor : after ((((start 0x8013).setReg 0 0xF0#8).setReg 1 0x3C#8).setReg 0xF 1#8)
    (fun t => (t.reg 0, t.reg 1, t.reg 0xF)) = some (0xCC#8, 0x3C#8, 1#8) := by decide

/-- T53, and T55 with x = F. -/
theorem test_add_reg : after (((start 0x8014).setReg 0 255#8).setReg 0xF 9#8)
      (fun t => (t.reg 0, t.reg 0xF)) = some (255#8, 0#8) ∧
    after (((start 0x8F14).setReg 0xF 200#8).setReg 1 100#8) (fun t => (t.reg 0xF, t.reg 1)) =
      some (1#8, 100#8) := by decide

/-- S6, and T56 with y = F. -/
theorem test_add_reg_carry : after (((start 0x8014).setReg 0 250#8).setReg 1 10#8)
      (fun t => (t.reg 0, t.reg 0xF)) = some (4#8, 1#8) ∧
    after (((start 0x80F4).setReg 0 1#8).setReg 0xF 1#8) (fun t => (t.reg 0, t.reg 0xF)) =
      some (2#8, 0#8) := by decide

/-- S7 and T59. -/
theorem test_sub : after (((start 0x8015).setReg 0 5#8).setReg 1 10#8)
      (fun t => (t.reg 0, t.reg 0xF)) = some (251#8, 0#8) ∧
    after (((start 0x8015).setReg 0 10#8).setReg 1 5#8) (fun t => (t.reg 0, t.reg 0xF)) =
      some (5#8, 1#8) := by decide

/-- T58 and T60. -/
theorem test_sub_edges : after (((start 0x8015).setReg 0 7#8).setReg 1 7#8)
      (fun t => (t.reg 0, t.reg 0xF)) = some (0#8, 0#8) ∧
    after (((start 0x8F15).setReg 0xF 3#8).setReg 1 5#8) (fun t => t.reg 0xF) = some 0#8 := by decide

/-- T64 and T63. -/
theorem test_shr : after (((start 0x8526).setReg 5 4#8).setReg 2 0xFF#8)
      (fun t => (t.reg 5, t.reg 0xF)) = some (2#8, 0#8) ∧
    after ((start 0x8F06).setReg 0xF 0xFE#8) (fun t => t.reg 0xF) = some 0#8 := by decide

/-- T66 and T67. -/
theorem test_subn : after (((start 0x8017).setReg 0 10#8).setReg 1 5#8)
      (fun t => (t.reg 0, t.reg 0xF)) = some (0xFB#8, 0#8) ∧
    after (((start 0x8017).setReg 0 9#8).setReg 1 9#8) (fun t => (t.reg 0, t.reg 0xF)) =
      some (0#8, 0#8) := by decide

/-- T69 and T69b. -/
theorem test_shl : after ((start 0x850E).setReg 5 0x80#8) (fun t => (t.reg 5, t.reg 0xF)) = some (0#8, 1#8) ∧
    after ((start 0x8FFE).setReg 0xF 0xC0#8) (fun t => t.reg 0xF) = some 1#8 := by decide

/-- T69c. -/
theorem test_rnd : after (start 0xC30F ⟨0, 0xA7#8, 0⟩) (fun t => t.reg 3) = some 0x07#8 := by decide

/-- T106. -/
theorem test_ld_i : after (start 0xA300) (fun t => t.i) = some 0x300#16 := by decide

/-- T77, the joint wrap of R201. -/
theorem test_drw_wraps_to_the_next_row :
    after (({ start 0xD011 with i := 0x300#16 }.setReg 0 63#8).writeByte 0x300 0xFF#8)
      (fun t => (t.screen.map Prod.fst, t.cell 63, t.reg 0xF)) =
    some ([63, 64, 65, 66, 67, 68, 69, 70], 0xFF#8, 0#8) := by decide

/-- T79 and T82. -/
theorem test_drw_collision_and_fault :
    after (({ start 0xD011 with i := 0x300#16, screen := [(0, 0x01#8)] }).writeByte 0x300 0x80#8)
      (fun t => (t.screen, t.reg 0xF)) = some ([(0, 0xFE#8)], 1#8) ∧
    faultOf { start 0xD012 with i := 0xFFF#16 } = some (.memOutOfRange 0x1000) := by decide

/-- T87 and T91. -/
theorem test_skp : after ({ start 0xE29E with keys := pressing 5 }.setReg 2 5#8) (fun t => t.pc) =
      some 0x204#16 ∧
    faultOf ((start 0xE29E).setReg 2 16#8) = some (.keyOutOfRange 16#8) := by decide

/-- T89 and T90. -/
theorem test_sknp : after ({ start 0xE2A1 with keys := pressing 4 }.setReg 2 5#8) (fun t => t.pc) =
      some 0x204#16 ∧
    after ({ start 0xE2A1 with keys := pressing 5 }.setReg 2 5#8) (fun t => t.pc) = some 0x202#16 := by decide

/-- T100 and T102. -/
theorem test_ld_vx_dt : after { start 0xF107 ⟨3, 0#8, 0⟩ with dt := 0x10#8 } (fun t => (t.reg 1, t.dt)) =
      some (0x0D#8, 0x0D#8) ∧
    after { start 0xF107 ⟨3, 0#8, 0⟩ with dt := 0x10#8, freeze := true } (fun t => (t.reg 1, t.dt)) =
      some (0x10#8, 0x10#8) := by decide

/-- T93 and T95. -/
theorem test_ld_vx_k : after { (start 0xF30A).setReg 3 9#8 with keys := pressing 13 }
      (fun t => (t.reg 3, t.pc)) = some (0#8, 0x202#16) ∧
    after ((start 0xF30A).setReg 3 9#8) (fun t => (t.reg 3, t.pc)) = some (9#8, 0x200#16) := by decide

/-- T96 and T97. -/
theorem test_ld_vx_k_several : after { start 0xF30A ⟨0, 0#8, 3⟩ with keys := (pressing 3).set 7 true }
      (fun t => t.reg 3) = some 0xC#8 ∧
    after { start 0xF30A ⟨0, 0#8, 7⟩ with keys := (pressing 3).set 7 true } (fun t => t.reg 3) =
      some 0xD#8 := by decide

/-- T103. -/
theorem test_ld_dt_vx : after ((start 0xF115).setReg 1 0x3C#8) (fun t => (t.dt, t.st)) =
    some (0x3C#8, 0#8) := by decide

/-- T104. -/
theorem test_ld_st_vx : after ((start 0xF118).setReg 1 2#8) (fun t => (t.st, t.dt, t.soundOutput)) =
    some (2#8, 0#8, true) := by decide

/-- T107 and T108. -/
theorem test_add_i : after ({ start 0xF01E with i := 0x0FFE#16 }.setReg 0 5#8) (fun t => t.i) =
      some 0x1003#16 ∧
    after (({ start 0xF01E with i := 0xFFFF#16 }.setReg 0 2#8).setReg 0xF 9#8)
      (fun t => (t.i, t.reg 0xF)) = some (0x0001#16, 9#8) := by decide

/-- T109 and T111. -/
theorem test_ld_f : after ((start 0xF229).setReg 2 0xA#8) (fun t => t.i) = some 0x032#16 ∧
    after ((start 0xF029).setReg 0 0xFF#8) (fun t => t.i) = some 0x4FB#16 := by decide

/-- T113 and T115. -/
theorem test_ld_b : after ({ start 0xF033 with i := 0x300#16 }.setReg 0 255#8)
      (fun t => t.readBytes 0x300 4) = some [2#8, 5#8, 5#8, 0#8] ∧
    faultOf ({ start 0xF033 with i := 0xFFE#16 }.setReg 0 1#8) = some (.memOutOfRange 0x1000) := by decide

/-- T116 and T122. -/
theorem test_ld_mem_vx : after (({ start 0xF155 with i := 0x400#16 }.setReg 0 1#8).setReg 1 2#8)
      (fun t => (t.readBytes 0x400 3, t.i)) = some ([1#8, 2#8, 0#8], 0x400#16) ∧
    after ((start 0xF055).setReg 0 0xAA#8) (fun t => t.readByte 0) = some 0xAA#8 := by decide

/-- T119 and T121. -/
theorem test_ld_vx_mem : after ((({ start 0xF265 with i := 0x300#16 }.writeBytes 0x300
      [1#8, 5#8, 6#8, 7#8]).setReg 3 9#8)) (fun t => (t.reg 0, t.reg 1, t.reg 2, t.reg 3, t.i)) =
      some (1#8, 5#8, 6#8, 9#8, 0x300#16) ∧
    faultOf { start 0xF165 with i := 0xFFF#16 } = some (.memOutOfRange 0x1000) := by decide

/-! ## Fetch, faults, load, loop -/

/-- T130, and the fetch order of section 2. -/
theorem test_fetch : faultOf { start 0 with pc := 0xFFF#16 } = some (.memOutOfRange 0x1000) ∧
    (State.reset.writeBytes 0x200 [0x12#8, 0x34#8]).getInstructionAt 0x200 = .ok 0x1234#16 := by decide

/-- T124, T123: the decay of a faulting step is discarded, the fault stays, `init` clears it. -/
theorem test_fault_commit :
    (((start 0xE29E ⟨2, 0#8, 0⟩).setReg 2 16#8).setDt 5#8).afterStep =
      (((start 0xE29E ⟨2, 0#8, 0⟩).setReg 2 16#8).setDt 5#8).setFault (some (.keyOutOfRange 16#8)) ∧
    faultOf ((start 0).setFault (some (.stackOverflow 15#8))) = some (.stackOverflow 15#8) ∧
    ((start 0).setFault (some (.stackOverflow 15#8))).init.fault = none := by decide

/-- S3, and R294 and R295 on a short image. -/
theorem test_load :
    (State.reset.load []).1 = .invalidFileSize ∧
    (State.reset.load [0x6A#8, 0x3C#8, 0x00#8]).1 = .ok ∧
    (State.reset.load [0x6A#8, 0x3C#8, 0x00#8]).2.mem = [(0x200, 0x6A#8), (0x201, 0x3C#8)] ∧
    (State.reset.load [0x6A#8, 0x3C#8, 0x00#8]).2.romSize = 3 := by decide

/-- T72, and the refusal of R125. -/
theorem test_loop_and_pixel : after (start 0x1300) (fun t => t.loopOutput) = some false ∧
    State.reset.loopOutput = false ∧ State.reset.pixel 64 0 = .error (.pixelOutside 64 0) ∧
    State.reset.pixel 63 31 = .ok 0#8 := by decide

/-- S10. -/
theorem test_disassemble :
    disassemble 0x6A3C#16 = "LD VA, 0x3C" ∧ disassemble 0xD125#16 = "DRW V1, V2, 0x5" := by decide

/-- A step from reset itself runs: zeroed memory is SYS 0x000 (R299), whatever the free draws are. -/
theorem test_step_from_reset : after State.reset (fun t => (t.pc, t.dt, t.st, t.decOp)) =
    some (0x202#16, 0#8, 0#8, 0) := by decide

/-- The first bytes of the default font (R53): glyph A at 0x032. -/
theorem test_font : State.reset.readBytes 0x032 5 = [0xF0#8, 0x90#8, 0xF0#8, 0x90#8, 0x90#8] ∧
    State.reset.readByte 0x04F = 0x80#8 ∧ State.reset.readByte 0x050 = 0#8 := by decide

/-! ## Witnesses: for every obligation with hypotheses, a state and operands that meet them together, each clause at
a value on the edge of its range -/

/-- The step from `s` goes on. -/
def goesOn (s : State) : Bool :=
  match step s with
  | .next _ => true
  | .fault _ => false
  | .refused _ => false

/-- The execute phase of `i` in `s` goes on. -/
def completes (i : Instr) (s : State) : Bool :=
  match exec i s with
  | .next _ => true
  | .fault _ => false
  | .refused _ => false

theorem step_of_goesOn {s : State} (h : goesOn s = true) : ∃ t, step s = .next t := by
  unfold goesOn at h
  cases hs : step s with
  | next t => exact ⟨t, rfl⟩
  | fault r => rw [hs] at h; cases h
  | refused r => rw [hs] at h; cases h

theorem exec_of_completes {i : Instr} {s : State} (h : completes i s = true) : ∃ t, exec i s = .next t := by
  unfold completes at h
  cases hs : exec i s with
  | next t => exact ⟨t, rfl⟩
  | fault r => rw [hs] at h; cases h
  | refused r => rw [hs] at h; cases h

theorem witness_LoadInstallsTheImage :
    (1 ≤ [0x6A#8].length ∧ [0x6A#8].length ≤ 3584) ∧
    (1 ≤ (List.replicate 3584 0x6A#8).length ∧ (List.replicate 3584 0x6A#8).length ≤ 3584) := by
  rw [List.length_replicate]; decide

theorem witness_FailedLoadLeavesTheInitState :
    ([] : List Byte).length = 0 ∧ 3584 < (List.replicate 3585 0x00#8).length ∧
    (State.reset.loadRom .missing).1 ≠ .ok ∧ (State.reset.loadRom (.unreadable 0)).1 ≠ .ok ∧
    (State.reset.loadRom (.unreadable 3584)).1 ≠ .ok ∧ (State.reset.loadRom (.readable [])).1 ≠ .ok := by
  rw [List.length_replicate]; decide

theorem witness_DecodingInvertsEncoding :
    (Instr.sys 0xFFF#12).wellFormed = true ∧ (Instr.drw 15 0 15).wellFormed = true := by decide

theorem witness_EncodingInvertsDecoding :
    decodeKnown 0x6FFF#16 = some (.ldImm 15 0xFF#8) ∧ decodeKnown 0x0FE0#16 = some .cls ∧
    decodeKnown 0x0FEE#16 = some .ret := by decide

theorem witness_UnknownWordsAreNoOps :
    (∀ r ∈ opcodeRows, 0x5001#16 &&& r.mask ≠ r.value) ∧ (start 0x5001).fetches 0x5001#16 := by
  unfold State.fetches; decide

theorem witness_StepRunsTheDecodedInstruction :
    (start 0x6A3C).fault = none ∧ (start 0x6A3C).pc.toNat + 1 < 4096 ∧
    decode ((start 0x6A3C).readBytes (start 0x6A3C).pc.toNat 2) = .ok (.ldImm 10 0x3C#8, []) := by decide

theorem witness_FetchIsBigEndian :
    ({ State.reset with pc := 0xFFE#16 }).fetches 0x0000#16 ∧ 0xFFE ≤ 0xFFE := by
  unfold State.fetches; decide

theorem witness_StepFetchesAndRecordsTheDecoderState :
    ({ State.reset with pc := 0xFFF#16 }).fault = none ∧ 4096 ≤ ({ State.reset with pc := 0xFFF#16 }).pc.toNat + 1 ∧
    ({ State.reset with pc := 0x1000#16 }).fault = none ∧ goesOn (start 0x8128) = true := by decide

theorem witness_DecoderStateIsNeverRead : ∃ t, step (start 0x6A3C) = .next t := step_of_goesOn (by decide)

/-- Clause by clause, the last clause at its first and its last index. -/
theorem witness_NextPcOfEveryInstruction :
    (goesOn (start 0x1FFF) = true ∧ decodeWord 0x1FFF#16 = .jp 0xFFF#12) ∧
    (goesOn (start 0x2000) = true ∧ decodeWord 0x2000#16 = .call 0x000#12) ∧
    (goesOn ((start 0xBFFF).setReg 0 0xFF#8) = true ∧ decodeWord 0xBFFF#16 = .jpV0 0xFFF#12) ∧
    (goesOn { start 0x00EE with sp := 15#8 } = true ∧ decodeWord 0x00EE#16 = .ret) ∧
    (goesOn (start 0x3F00) = true ∧ goesOn (start 0x4F01) = true ∧ goesOn (start 0x50F0) = true ∧
      goesOn (start 0x9FF0) = true) ∧
    (goesOn { (start 0xEF9E).setReg 15 15#8 with keys := pressing 15 } = true ∧ goesOn (start 0xE0A1) = true) ∧
    (goesOn (start 0xF00A) = true ∧ goesOn { start 0xF00A with keys := pressing 15 } = true) ∧
    (goesOn (start 0x0000) = true ∧ goesOn { start 0xFF65 with i := 0xFF0#16 } = true) := by decide

/-- The seven cases, the addresses just inside the fault. -/
theorem witness_StepFaultsExactlyAsListed :
    faultOf { State.reset with pc := 0xFFFF#16 } = some (.memOutOfRange 0xFFFF) ∧
    faultOf { start 0xD01F with i := 0xFF2#16 } = some (.memOutOfRange 0x1000) ∧
    faultOf { start 0xF033 with i := 0xFFE#16 } = some (.memOutOfRange 0x1000) ∧
    faultOf { start 0xFF55 with i := 0xFF1#16 } = some (.memOutOfRange 0x1000) ∧
    faultOf { start 0xF065 with i := 0x1001#16 } = some (.memOutOfRange 0x1001) ∧
    faultOf { start 0x2ABC with sp := 254#8 } = some (.stackOverflow 254#8) ∧
    faultOf { start 0x00EE with sp := 255#8 } = some (.stackOutOfRange 255#8) ∧
    faultOf ((start 0xE09E).setReg 0 255#8) = some (.keyOutOfRange 255#8) ∧
    faultOf ((start 0xE0A1).setReg 0 16#8) = some (.keyOutOfRange 16#8) := by decide

theorem witness_FaultDiscardsTheStepAndStops :
    ({ start 0x2ABC with sp := 15#8 }).fault = none ∧
    faultOf { start 0x2ABC with sp := 15#8 } = some (.stackOverflow 15#8) ∧
    (State.reset.setFault (some (.stackOverflow 15#8))).fault = some (.stackOverflow 15#8) := by decide

theorem witness_CycleIsItsStepsInSequence :
    ∃ t, step ((start 0x6A3C).setInputs (pressing 3) true) = .next t := step_of_goesOn (by decide)

/-- A store at the last address and a sprite at the last cell. -/
theorem witness_StepKeepsTheCanonicalForm :
    ({ (start 0xF055).setReg 0 9#8 with i := 0xFFF#16 }).wf = true ∧
    goesOn { (start 0xF055).setReg 0 9#8 with i := 0xFFF#16 } = true ∧
    ({ start 0xD011 with screen := [(2047, 0xFF#8)] }).wf = true ∧
    goesOn { start 0xD011 with screen := [(2047, 0xFF#8)] } = true := by decide

theorem witness_StepKeepsTheScreenBinary :
    (start 0xD015).screenIsBinary ∧ ∃ t, step (start 0xD015) = .next t :=
  ⟨fun _ => .inl rfl, step_of_goesOn (by decide)⟩

theorem witness_StepKeepsTheStackPointerInRange :
    ({ start 0x00EE with sp := 15#8 }).spInRange ∧ goesOn { start 0x00EE with sp := 15#8 } = true ∧
    ({ start 0x2ABC with sp := 14#8 }).spInRange ∧ goesOn { start 0x2ABC with sp := 14#8 } = true := by
  unfold State.spInRange; decide

theorem witness_CanonicalFormIsUnique :
    Memory.wf defaultFont [(0x000, 0x00#8), (0xFFF, 0x01#8)] = true ∧
    Screen.wf [(0, 0x01#8), (2047, 0xFF#8)] = true := by decide

/-- Index 8 with x = 0 is outside every list of writers, index 33 inside the list of those that write no register. -/
theorem witness_OnlyTheNamedInstructionsWriteEachState :
    goesOn (start 0x60FF) = true ∧ (decodeWord 0x60FF#16).index = 8 ∧ xOf 0x60FF#16 ≠ 15 ∧
    goesOn (start 0xF055) = true ∧ (decodeWord 0xF055#16).index = 33 := by decide

theorem witness_JpTransfersToItsOperand :
    (start 0x1FFF).fetches 0x1FFF#16 ∧ familyOf 0x1FFF#16 = 0x1#4 ∧ operandOf 0x1FFF#16 = 0xFFF#12 := by
  unfold State.fetches; decide

theorem witness_CallPushesItsOwnAddress :
    ((14#8).toNat + 1) % 256 < 16 ∧ ((255#8).toNat + 1) % 256 < 16 ∧ 16 ≤ ((15#8).toNat + 1) % 256 ∧
    16 ≤ ((254#8).toNat + 1) % 256 := by decide

theorem witness_RetPopsTheStack :
    ({ State.reset with sp := 15#8 }).slot? (15#8).toNat = some 0x0000#16 ∧ (15#8).toNat < 16 ∧
    16 ≤ (16#8).toNat := by decide

theorem witness_RetOnTheEmptyStackIsDefined : State.reset.sp = 0x00#8 := rfl

theorem witness_RetReturnsBehindItsCall :
    ({ State.reset with sp := 14#8 }).sp.toNat < 15 ∧
    ∃ t u : State, exec (.call 0xABC#12) { State.reset with sp := 14#8 } = .next t ∧ u.sp = t.sp ∧ u.stack = t.stack := by
  refine ⟨by decide, ?_⟩
  obtain ⟨t, h⟩ := exec_of_completes (i := .call 0xABC#12) (s := { State.reset with sp := 14#8 }) (by decide)
  exact ⟨t, t, h, rfl, rfl⟩

theorem witness_LdImmediateLoadsItsByte : familyOf 0x6F00#16 = 0x6#4 := by decide

/-- Of AddRegisterSetsTheCarry, SubtractionsSetTheStrictFlag and ShiftsSetTheBitShiftedOut. -/
theorem witness_flag_writers : (14 : Reg) ≠ 15 := by decide

theorem witness_ClsClearsEveryCell : 0x0FE0#16 &&& 0xF0FF#16 = 0x00E0#16 := by decide

/-- A sprite of no row, one that ends at the last byte (with a collision and without), and one that ends beyond. -/
theorem witness_DrwComplementsTheCellsOfTheSprite :
    (0xFFF#16).toNat + 1 ≤ 4096 ∧ 4096 < (0xFF2#16).toNat + 15 ∧
    completes (.drw 0 0 0) { State.reset with i := 0xFFFF#16 } = true ∧
    after ({ start 0xD011 with i := 0xFFF#16, screen := [(7, 0xFF#8)] }.writeByte 0xFFF 0x01#8)
      (fun t => (t.screen, t.reg 15)) = some ([], 1#8) ∧
    after ({ start 0xD011 with i := 0xFFF#16 }.writeByte 0xFFF 0x01#8)
      (fun t => (t.screen, t.reg 15)) = some ([(7, 0xFF#8)], 0#8) := by decide

theorem witness_DrawingTwiceRestoresTheScreen :
    (14 : Reg) ≠ 15 ∧ (0 : Reg) ≠ 15 ∧ ∃ t, exec (.drw 14 0 15) State.reset = .next t :=
  ⟨by decide, by decide, exec_of_completes (by decide)⟩

theorem witness_KeySkipsTestTheKeyOfTheirValue :
    ((State.reset.setReg 3 15#8).reg 3).toNat = (15 : Fin 16).val ∧
    16 ≤ ((State.reset.setReg 3 16#8).reg 3).toNat := by decide

theorem witness_LdKeyWaitsOrReportsAPressedSlot :
    (∀ k : Fin 16, State.reset.keys[k] = false) ∧ (pressing 15)[(15 : Fin 16)] = true ∧
    (pressing 0)[(0 : Fin 16)] = true := by decide

theorem witness_OnlyKeyInstructionsReadTheKeys :
    (Instr.drw 0 0 1).index ∉ ([24, 25, 27] : List OpIndex) ∧
    (Instr.ldVxDt 0).index ∉ ([24, 25, 27] : List OpIndex) := by decide

theorem witness_DelayTimerRules :
    (familyOf 0xFF07#16 = 0xF#4 ∧ kkOf 0xFF07#16 = 0x07#8) ∧ (familyOf 0xF015#16 = 0xF#4 ∧ kkOf 0xF015#16 = 0x15#8) ∧
    ((start 0xFF07).fetches 0xFF07#16 ∧ decodeWord 0xFF07#16 = .ldVxDt 15) ∧
    ((start 0xF015).fetches 0xF015#16 ∧ decodeWord 0xF015#16 = .ldDtVx 0) ∧
    (goesOn { start 0xF118 ⟨3, 0#8, 0⟩ with dt := 2#8 } = true ∧ (decodeWord 0xF118#16).index ≠ 28) ∧
    (Instr.ldStVx 0).index ∉ ([26, 28] : List OpIndex) := by
  unfold State.fetches; decide

theorem witness_SoundTimerRules :
    (familyOf 0xFF18#16 = 0xF#4 ∧ kkOf 0xFF18#16 = 0x18#8) ∧
    ((start 0xFF18).fetches 0xFF18#16 ∧ decodeWord 0xFF18#16 = .ldStVx 15) ∧
    (goesOn { start 0xF115 ⟨3, 0#8, 0⟩ with st := 2#8 } = true ∧ (decodeWord 0xF115#16).index ≠ 29) ∧
    (Instr.ldDtVx 0).index ≠ 29 := by
  unfold State.fetches; decide

theorem witness_LdBStoresTheDigits : (0xFFD#16).toNat + 2 < 4096 ∧ 4096 ≤ (0xFFE#16).toNat + 2 := by decide

/-- Of LdMemStoresTheRegisters and LdRegistersLoadsFromMemory. -/
theorem witness_block_transfer :
    (0xFF0#16).toNat + (15 : Reg).val < 4096 ∧ 4096 ≤ (0xFF1#16).toNat + (15 : Reg).val ∧
    (0xFFF#16).toNat + (0 : Reg).val < 4096 ∧ 4096 ≤ (0x1000#16).toNat + (0 : Reg).val := by decide

theorem witness_StoredRegistersLoadBack :
    ∃ t, exec (.ldMemVx 15) { State.reset with i := 0xFF0#16 } = .next t := exec_of_completes (by decide)

theorem witness_LoopOutputMarksASelfJump : ∃ t, step (start 0x1200) = .next t := step_of_goesOn (by decide)

theorem witness_EndedRunChangesOnlyTheTimers :
    after { start 0x1200 ⟨1, 0#8, 0⟩ with dt := 5#8 } (fun t => (t.loopOutput, t.dt)) = some (true, 4#8) := by decide

theorem witness_EndedRunStaysEnded : 1 ≤ 1 ∧ 1 ≤ 2 ∧ (State.steps 1 (start 0x1200)).ended := by
  unfold State.ended; decide

theorem witness_ZeroedMemoryRunsToTheEnd :
    State.reset.fault = none ∧ State.reset.pc = 0x200#16 ∧
    ∀ a, 0x200 ≤ a → a < 4096 → State.reset.readByte a = 0x00#8 := by
  refine ⟨rfl, rfl, fun a ha _ => ?_⟩
  simp only [State.readByte, State.reset, Cells.read, Memory.unlisted]
  rw [Vector.getElem?_eq_none (by omega)]
  rfl

theorem witness_PortQueriesAnswerInsideTheirRange :
    State.reset.pixel 63 31 = .ok 0x00#8 ∧ State.reset.pixel 63 32 = .error (.pixelOutside 63 32) ∧
    State.reset.getInstructionAt 0xFFE = .ok 0x0000#16 ∧
    State.reset.getInstructionAt 0xFFF = .error (.instructionReadOutside 0xFFF) := by decide

end Sys2Proof.Tests
end

section
/-!
SUPPORT. What the execute phase of an instruction does not depend on (spec/10_state.md R27, R28, R30, R31): the
decoder state, the timers, the keys and freeze stand apart from the rest of the state, and an instruction that does
not name them answers the same whatever they hold.
-/

namespace Sys2Proof.Machine

/-- The fields that no instruction but the key and timer instructions touches during execute (R27, R28, R30, R31). -/
structure Aside where
  decOp : OpIndex
  decOperand : Operand
  dt : Byte
  st : Byte
  keys : Vector Bool 16
  freeze : Bool

/-- Those fields of a state. -/
def State.aside (s : State) : Aside := ⟨s.decOp, s.decOperand, s.dt, s.st, s.keys, s.freeze⟩

/-- The state with those fields replaced by their values under `g`. -/
def State.mapAside (s : State) (g : Aside → Aside) : State :=
  { s with
    decOp := (g s.aside).decOp, decOperand := (g s.aside).decOperand
    dt := (g s.aside).dt, st := (g s.aside).st, keys := (g s.aside).keys, freeze := (g s.aside).freeze }

/-! ## What the shared operations do under a replacement -/

variable (g : Aside → Aside) (s : State)

theorem State.readBytes_mapAside (a n : Nat) : (s.mapAside g).readBytes a n = s.readBytes a n := by
  induction n generalizing a with
  | zero => rfl
  | succ n ih => exact congrArg (s.readByte a :: ·) (ih (a + 1))

theorem State.writeBytes_mapAside (a : Nat) (bs : List Byte) :
    (s.mapAside g).writeBytes a bs = (s.writeBytes a bs).mapAside g := by
  induction bs generalizing s a with
  | nil => rfl
  | cons b rest ih => exact ih (s.writeByte a b) (a + 1)

theorem State.skipIf_mapAside (c : Bool) : (s.mapAside g).skipIf c = (s.skipIf c).mapAside g := by
  cases c <;> rfl

/-- A guarded access answers alike when the states that it goes on with are related by `f`. -/
theorem guardAccess_map (f : State → State) {first count : Nat} {t u : State} (h : u = f t) :
    guardAccess first count u = mapNext f (guardAccess first count t) := by
  unfold guardAccess
  cases accessFault first count with
  | none => exact congrArg _ h
  | some r => rfl

/-! ## The execute phase under a replacement -/

theorem execRet_mapAside : execRet (s.mapAside g) = mapNext (·.mapAside g) (execRet s) := by
  have hslot : (s.mapAside g).slot? (s.mapAside g).sp.toNat = s.slot? s.sp.toNat := rfl
  have hsp : (s.mapAside g).sp = s.sp := rfl
  unfold execRet
  rw [hslot, hsp]
  cases s.slot? s.sp.toNat with
  | none => rfl
  | some ret => by_cases h : s.sp = 0x00#8 <;> simp only [h, if_true, if_false] <;> rfl

theorem execCall_mapAside (nnn : Operand) :
    execCall nnn (s.mapAside g) = mapNext (·.mapAside g) (execCall nnn s) := by
  have hsp : (s.mapAside g).sp = s.sp := rfl
  unfold execCall
  rw [hsp]
  by_cases h : 16 ≤ (s.sp + 1).toNat <;> simp only [h, if_true, if_false] <;> rfl

theorem execDrw_mapAside (x y : Reg) (n : Fin 16) :
    execDrw x y n (s.mapAside g) = mapNext (·.mapAside g) (execDrw x y n s) := by
  have hrows : (s.mapAside g).readBytes (s.mapAside g).i.toNat n.val = s.readBytes s.i.toNat n.val :=
    State.readBytes_mapAside g s _ _
  unfold execDrw
  rw [hrows]
  exact guardAccess_map (·.mapAside g) rfl

section
variable {g s}

/-- A meaning that tests a key reads the key of the same register value, so it answers alike when the keys agree. -/
theorem State.key?_reg_mapAside (hkeys : (s.mapAside g).keys = s.keys) (x : Reg) :
    (s.mapAside g).key? ((s.mapAside g).reg x).toNat = s.key? (s.reg x).toNat :=
  congrArg (·[(s.reg x).toNat]?) hkeys

theorem execSkp_mapAside (hkeys : (s.mapAside g).keys = s.keys) (x : Reg) :
    execSkp x (s.mapAside g) = mapNext (·.mapAside g) (execSkp x s) := by
  unfold execSkp
  rw [State.key?_reg_mapAside hkeys]
  cases s.key? (s.reg x).toNat with
  | none => rfl
  | some pressed => exact congrArg _ (State.skipIf_mapAside g s _)

theorem execSknp_mapAside (hkeys : (s.mapAside g).keys = s.keys) (x : Reg) :
    execSknp x (s.mapAside g) = mapNext (·.mapAside g) (execSknp x s) := by
  unfold execSknp
  rw [State.key?_reg_mapAside hkeys]
  cases s.key? (s.reg x).toNat with
  | none => rfl
  | some pressed => exact congrArg _ (State.skipIf_mapAside g s _)

theorem execLdVxK_mapAside (hkeys : (s.mapAside g).keys = s.keys) (x : Reg) :
    execLdVxK x (s.mapAside g) = mapNext (·.mapAside g) (execLdVxK x s) := by
  have hdraw : (s.mapAside g).draw = s.draw := rfl
  unfold execLdVxK
  rw [hkeys, hdraw]
  cases chosenSlot s.keys s.draw.kslot <;> rfl

end

/-- An instruction other than the timer instructions answers the same whatever stands aside, and leaves it; only the
key instructions read the keys. -/
theorem exec_mapAside {i : Instr} (htimer : i.index ∉ ([26, 28, 29] : List OpIndex))
    (hkeys : i.index ∈ ([24, 25, 27] : List OpIndex) → (s.mapAside g).keys = s.keys) :
    exec i (s.mapAside g) = mapNext (·.mapAside g) (exec i s) := by
  cases i
  case ldVxDt | ldDtVx | ldStVx => simp [Instr.index] at htimer
  case skp x => exact execSkp_mapAside (hkeys (by simp [Instr.index])) x
  case sknp x => exact execSknp_mapAside (hkeys (by simp [Instr.index])) x
  case ldVxK x => exact execLdVxK_mapAside (hkeys (by simp [Instr.index])) x
  case seImm | sneImm | seReg | sneReg => exact congrArg _ (State.skipIf_mapAside g s _)
  case ret => exact execRet_mapAside g s
  case call nnn => exact execCall_mapAside g s nnn
  case drw x y n => exact execDrw_mapAside g s x y n
  case ldB | ldMemVx => exact guardAccess_map (·.mapAside g) (State.writeBytes_mapAside g s _ _)
  case ldVxMem => exact guardAccess_map (·.mapAside g) rfl
  all_goals rfl

/-! ## The decoder state and the timers, each by itself -/

/-- No execute phase depends on the decoder state (R31). -/
theorem exec_setDecoded (i : Instr) (d : OpIndex × Operand) :
    exec i (s.setDecoded d) = mapNext (·.setDecoded d) (exec i s) := by
  cases i
  case ldVxDt | ldDtVx | ldStVx => rfl
  all_goals
    exact exec_mapAside (fun a => { a with decOp := d.1, decOperand := d.2 }) s (by simp [Instr.index]) fun _ => rfl

/-- Only LD Vx, DT and LD DT, Vx depend on DT (R27). -/
theorem exec_setDt {i : Instr} (hi : i.index ∉ ([26, 28] : List OpIndex)) (b : Byte) :
    exec i (s.setDt b) = mapNext (·.setDt b) (exec i s) := by
  cases i
  case ldVxDt | ldDtVx => simp [Instr.index] at hi
  case ldStVx => rfl
  all_goals exact exec_mapAside (fun a => { a with dt := b }) s (by simp [Instr.index]) fun _ => rfl

/-- Only LD ST, Vx depends on ST (R28). -/
theorem exec_setSt {i : Instr} (hi : i.index ≠ 29) (b : Byte) :
    exec i (s.setSt b) = mapNext (·.setSt b) (exec i s) := by
  cases i
  case ldStVx => exact absurd rfl hi
  case ldVxDt | ldDtVx => rfl
  all_goals exact exec_mapAside (fun a => { a with st := b }) s (by simp [Instr.index]) fun _ => rfl

end Sys2Proof.Machine
end

section
/-!
SUPPORT. What an instruction writes of one register or timer, and how a step around it is put together
(spec/40_dispatch_and_cycle.md R111 to R118; spec/45_keys_timers.md R225 to R227).
-/

namespace Sys2Proof.Machine

variable {s t : State}

/-! ## Frames -/

theorem Frame.refl (c : Changes) (s : State) : Frame c s s where
  regs _ _ := rfl
  i _ := rfl
  pc _ := rfl
  sp _ := rfl
  slots _ _ := rfl
  dt _ := rfl
  st _ := rfl
  mem _ _ := rfl
  screen _ _ := rfl
  decOp := rfl
  decOperand := rfl
  prevPc := rfl
  romSize := rfl
  fault := rfl
  font := rfl
  keys := rfl
  freeze := rfl
  draws := rfl
  drawCount := rfl

theorem Frame.setReg (s : State) (x : Reg) (b : Byte) : Frame { regs := [x] } s (s.setReg x b) :=
  { Frame.refl { regs := [x] } s with
    regs := fun k hk => by rw [State.reg_setReg, if_neg (by simpa using hk)] }

theorem Frame.setDt (s : State) (b : Byte) : Frame { dt := true } s (s.setDt b) :=
  { Frame.refl { dt := true } s with dt := nofun }

theorem Frame.setSt (s : State) (b : Byte) : Frame { st := true } s (s.setSt b) :=
  { Frame.refl { st := true } s with st := nofun }

/-! ## The words of family 0xF (R84) -/

theorem decodeKnown_of_familyF {w : Word} (h : familyOf w = 0xF#4) : decodeKnown w = decodeFamilyF w := by
  simp [decodeKnown, h]

/-- A known word runs as its form, under its form's index. -/
theorem decodeWord_of_known {w : Word} {i : Instr} (h : decodeKnown w = some i) :
    decodeWord w = i ∧ (decodePair w).1 = i.index := by
  simp [decodeWord, decodePair, h]

/-! ## The timers in a step (R112, R225 to R227) -/

theorem exec_ldVxDt (x : Reg) (s : State) : exec (.ldVxDt x) s = .next (s.setReg x s.dt) := rfl

theorem exec_ldDtVx (x : Reg) (s : State) : exec (.ldDtVx x) s = .next (s.setDt (s.reg x)) := rfl

theorem exec_ldStVx (x : Reg) (s : State) : exec (.ldStVx x) s = .next (s.setSt (s.reg x)) := rfl

/-- A step that finds the word of `i` at PC, when the execute phase of `i` goes on. -/
theorem step_of_exec {w : Word} {i : Instr} {u : State} (hw : s.fetches w) (hi : decodeWord w = i)
    (hu : exec i (s.beginStep w) = .next u) : step s = .next (u.endStep s.pc) := by
  rw [step_of_fetches hw, runWord, hi, hu]

/-- An execute phase other than that of LD DT, Vx leaves DT: writing back the value it held changes no answer. -/
theorem exec_next_dt {i : Instr} (h : exec i s = .next t) (hi : i.index ≠ 28) : t.dt = s.dt := by
  by_cases hread : i.index = 26
  · cases i
    case ldVxDt => cases h; rfl
    all_goals simp [Instr.index] at hread
  · have hback : exec i s = mapNext (·.setDt s.dt) (exec i s) := exec_setDt s (by simp [hi, hread]) s.dt
    rw [h] at hback
    rw [Host.Outcome.next.inj hback, State.setDt_dt]

/-- An execute phase other than that of LD ST, Vx leaves ST: writing back the value it held changes no answer. -/
theorem exec_next_st {i : Instr} (h : exec i s = .next t) (hi : i.index ≠ 29) : t.st = s.st := by
  have hback : exec i s = mapNext (·.setSt s.st) (exec i s) := exec_setSt s hi s.st
  rw [h] at hback
  rw [Host.Outcome.next.inj hback, State.setSt_st]

/-- A step other than one of LD DT, Vx leaves DT decayed. -/
theorem step_next_dt (h : step s = .next t) (hi : (decodeWord (s.fetch16 s.pc.toNat)).index ≠ 28) :
    t.dt.toNat = s.dtDecayed := by
  obtain ⟨_, _, u, hu, rfl⟩ := step_next h
  exact (congrArg BitVec.toNat (exec_next_dt hu hi)).trans (State.dtDecayed_eq s _)

/-- A step other than one of LD ST, Vx leaves ST decayed. -/
theorem step_next_st (h : step s = .next t) (hi : (decodeWord (s.fetch16 s.pc.toNat)).index ≠ 29) :
    t.st.toNat = s.stDecayed := by
  obtain ⟨_, _, u, hu, rfl⟩ := step_next h
  exact (congrArg BitVec.toNat (exec_next_st hu hi)).trans (State.stDecayed_eq s _)

/-- A step of LD Vx, DT reads DT after the decay of that step, and leaves it so. -/
theorem step_ldVxDt {w : Word} {x : Reg} (hw : s.fetches w) (hx : decodeWord w = .ldVxDt x) :
    ∃ t, step s = .next t ∧ (t.reg x).toNat = s.dtDecayed ∧ t.dt.toNat = s.dtDecayed := by
  refine ⟨_, step_of_exec hw hx (exec_ldVxDt x _), ?_, State.dtDecayed_eq s w⟩
  show (((s.beginStep w).setReg x (s.beginStep w).dt).reg x).toNat = s.dtDecayed
  rw [State.reg_setReg, if_pos rfl, State.dtDecayed_eq]

/-- A step of LD DT, Vx leaves DT at Vx, without decay. -/
theorem step_ldDtVx {w : Word} {x : Reg} (hw : s.fetches w) (hx : decodeWord w = .ldDtVx x) :
    ∃ t, step s = .next t ∧ t.dt = s.reg x :=
  ⟨_, step_of_exec hw hx (exec_ldDtVx x _), State.beginStep_reg w x⟩

/-- A step of LD ST, Vx leaves ST at Vx, without decay. -/
theorem step_ldStVx {w : Word} {x : Reg} (hw : s.fetches w) (hx : decodeWord w = .ldStVx x) :
    ∃ t, step s = .next t ∧ t.st = s.reg x :=
  ⟨_, step_of_exec hw hx (exec_ldStVx x _), State.beginStep_reg w x⟩

/-- The sound output is on exactly while ST is not 0 (R126). -/
theorem State.soundOutput_iff (s : State) : s.soundOutput = true ↔ s.st ≠ 0x00#8 := by
  simp [State.soundOutput]

end Sys2Proof.Machine
end

section
/-!
PROOFS. The statements about the decoder state and the timers, settled (spec/10_state.md R27, R28, R31).
-/

open Sys2Proof Sys2Proof.Machine

/-- Settles O16: the step records the pair of its word before execute, which keeps it and, by `exec_setDecoded`, does
not read it. -/
theorem decoderStateIsNeverRead : Obligations.DecoderStateIsNeverRead := by
  refine ⟨fun s t h => ?_, fun i s d => exec_setDecoded s i d⟩
  obtain ⟨_, _, u, hu, rfl⟩ := step_next h
  have hkept := exec_keeps hu
  show (u.decOp, u.decOperand) = _
  rw [hkept.decOp, hkept.decOperand, State.beginStep_decOp, State.beginStep_decOperand]

/-- Settles O47, clause by clause: two encodings, two copies, the three kinds of step, and independence of DT. -/
theorem delayTimerRules : Obligations.DelayTimerRules := by
  refine ⟨fun w hf hk => decodeWord_of_known ?_, fun w hf hk => decodeWord_of_known ?_,
    fun x s => ⟨_, exec_ldVxDt x s, ?_, Frame.setReg s x s.dt⟩,
    fun x s => ⟨_, exec_ldDtVx x s, rfl, Frame.setDt s (s.reg x)⟩,
    fun s w x hw hx => step_ldVxDt hw hx, fun s w x hw hx => step_ldDtVx hw hx,
    fun s t h hi => step_next_dt h hi, fun i s b hi => exec_setDt s hi b⟩
  · simp [decodeKnown_of_familyF hf, decodeFamilyF, hk]
  · simp [decodeKnown_of_familyF hf, decodeFamilyF, hk]
  · rw [State.reg_setReg, if_pos rfl]

/-- Settles O48, clause by clause: the encoding, the copy, the two kinds of step, independence of ST, and the sound
output. -/
theorem soundTimerRules : Obligations.SoundTimerRules := by
  refine ⟨fun w hf hk => decodeWord_of_known ?_, fun x s => ⟨_, exec_ldStVx x s, rfl, Frame.setSt s (s.reg x)⟩,
    fun s w x hw hx => ?_, fun s t h hi => step_next_st h hi, fun i s b hi => exec_setSt s hi b,
    fun x s b => rfl, fun s => ?_⟩
  · simp [decodeKnown_of_familyF hf, decodeFamilyF, hk]
  · obtain ⟨t, ht, hst⟩ := step_ldStVx hw hx
    exact ⟨t, ht, hst, hst ▸ State.soundOutput_iff t⟩
  · exact (State.soundOutput_iff s).trans (not_congr (BitVec.toNat_inj (y := 0x00#8)).symm)

end

section
/-!
SUPPORT. The fetched word as a number, and the fetch of a state that finds a word at PC (spec/20_memory.md R56).
-/

namespace Sys2Proof.Machine

/-- The high byte counts 256 times, the low byte once (R56). -/
theorem wordOfBytes_toNat (hi lo : Byte) : (wordOfBytes hi lo).toNat = hi.toNat * 256 + lo.toNat :=
  calc (wordOfBytes hi lo).toNat
    _ = hi.toNat <<< 8 ||| lo.toNat := BitVec.toNat_append hi lo
    _ = hi.toNat <<< 8 + lo.toNat := (Nat.shiftLeft_add_eq_or_of_lt lo.isLt hi.toNat).symm
    _ = hi.toNat * 256 + lo.toNat := by rw [Nat.shiftLeft_eq]

/-- A state that finds a word at PC fetches it without a fault. -/
theorem State.fetch_of_fetches {s : State} {w : Word} (h : s.fetches w) : s.fetch = .ok w := by
  have ⟨_, hmem, _⟩ := h
  rcases s.fetch_cases with ⟨_, hfetch⟩ | ⟨hout, _⟩
  · rw [hfetch, State.fetch16_of_fetches h]
  · omega

/-- The debug port answers the word of every address up to 0xFFE (R284). -/
theorem State.getInstructionAt_of_le {s : State} {a : Nat} (h : a ≤ 0xFFE) :
    s.getInstructionAt a = .ok (s.fetch16 a) := if_pos h

end Sys2Proof.Machine
end

section
/-!
PROOFS. The statement about the byte order of the fetch, settled (spec/20_memory.md R56).
-/

open Sys2Proof Sys2Proof.Machine

/-- Settles O14: the value of the word, the fetch of a step, and the debug port's read, each by its lemma. -/
theorem fetchIsBigEndian : Obligations.FetchIsBigEndian :=
  ⟨fun s a => wordOfBytes_toNat (s.readByte a) (s.readByte (a + 1)),
    fun _ _ hw => State.fetch_of_fetches hw,
    fun _ _ ha => State.getInstructionAt_of_le ha⟩

end

section
/-!
SUPPORT. The first address outside memory of a fetch (spec/40_dispatch_and_cycle.md R113, R118).
-/

namespace Sys2Proof.Machine

/-- Of the two addresses of a fetch that leaves memory, the first one outside. -/
theorem firstOutside_of_fetch {p : Nat} (hout : 4096 ≤ p + 1) :
    (if 4096 ≤ p then p else p + 1) = max p 4096 := by
  split
  case isTrue h => exact (max_eq_left h).symm
  case isFalse h => omega

end Sys2Proof.Machine
end

section
/-!
PROOFS. The statement about the fetch and the decoder state of a step, settled (spec/40_dispatch_and_cycle.md R113).
-/

open Sys2Proof Sys2Proof.Machine

/-- Settles O15: the fault is that of a fetch outside memory (`step_of_not_fetchable`), and the record of the decoder
state is the first clause of O16, whose fetched word is these two bytes. -/
theorem stepFetchesAndRecordsTheDecoderState : Obligations.StepFetchesAndRecordsTheDecoderState := by
  obtain ⟨hrecords, _⟩ := decoderStateIsNeverRead
  refine ⟨fun s hfault hout => ?_, hrecords⟩
  rw [firstOutside_of_fetch hout]
  exact step_of_not_fetchable hfault hout

end

section
/-!
SUPPORT. A transfer of control during execute and the step around it (spec/40_dispatch_and_cycle.md R115, R116, R127;
spec/41_control_flow.md R143).
-/

namespace Sys2Proof.Machine

variable {s : State} {w : Word}

/-! ## The transfer of control -/

theorem zext_toNat (nnn : Operand) : (zext nnn).toNat = nnn.toNat :=
  BitVec.toNat_setWidth_of_le (by decide)

/-- The pre-subtraction of a transfer is modulo 65536. -/
theorem State.jump_pc_toNat (s : State) (a : Word) : (s.jump a).pc.toNat = (a.toNat + 65536 - 2) % 65536 := by
  have hsub : (s.jump a).pc.toNat = (65536 - 2 + a.toNat) % 65536 := BitVec.toNat_sub a 2
  rw [hsub]
  congr 1
  omega

/-- The advance of the step makes up for the pre-subtraction, so the step ends at the target. -/
theorem State.endStep_jump_pc (s : State) (a pc0 : Word) : ((s.jump a).endStep pc0).pc = a :=
  BitVec.sub_add_cancel a 2

theorem Frame.setPc (s : State) (a : Word) : Frame { pc := true } s (s.setPc a) :=
  { Frame.refl { pc := true } s with pc := nofun }

/-- The loop output of a step that fetched at `pc0`: its record is of a JP whose operand is `pc0` (R127). -/
theorem State.endStep_loopOutput (s : State) (pc0 : Word) :
    (s.endStep pc0).loopOutput = true ↔ s.decOp = 3 ∧ s.decOperand.toNat = pc0.toNat := by
  have hrecord : (s.endStep pc0).loopOutput = (s.decOp == 3 && zext s.decOperand == pc0) := rfl
  rw [hrecord, Bool.and_eq_true, beq_iff_eq, beq_iff_eq, ← BitVec.toNat_inj, zext_toNat]

/-! ## The words of family 0x1 (R84) -/

theorem decodeKnown_of_family1 (h : familyOf w = 0x1#4) : decodeKnown w = some (.jp (operandOf w)) := by
  simp [decodeKnown, h]

/-- The record of a known word is its form's index with the operand field. -/
theorem decodePair_of_known {i : Instr} (h : decodeKnown w = some i) : decodePair w = (i.index, operandOf w) := by
  simp [decodePair, h]

/-! ## JP nnn (R143) -/

theorem exec_jp (nnn : Operand) (s : State) : exec (.jp nnn) s = .next (s.jump (zext nnn)) := rfl

/-- A step of JP ends at its operand. -/
theorem step_jp (hw : s.fetches w) (hf : familyOf w = 0x1#4) :
    step s = .next (((s.beginStep w).jump (zext (operandOf w))).endStep s.pc) :=
  step_of_exec hw (decodeWord_of_known (decodeKnown_of_family1 hf)).1 (exec_jp _ _)

/-- The loop output after a step of JP marks a jump to its own address. -/
theorem loopOutput_step_jp (hf : familyOf w = 0x1#4) (s : State) :
    (((s.beginStep w).jump (zext (operandOf w))).endStep s.pc).loopOutput = true ↔
      (operandOf w).toNat = s.pc.toNat := by
  have hpair : decodePair w = (3, operandOf w) := decodePair_of_known (decodeKnown_of_family1 hf)
  have hop : ((s.beginStep w).jump (zext (operandOf w))).decOp = 3 := by
    rw [State.jump, State.setPc_decOp, State.beginStep_decOp, hpair]
  have hoperand : ((s.beginStep w).jump (zext (operandOf w))).decOperand = operandOf w := by
    rw [State.jump, State.setPc_decOperand, State.beginStep_decOperand, hpair]
  rw [State.endStep_loopOutput, hop, hoperand]
  exact and_iff_right rfl

/-- The fetch at the last address of memory finds only one byte there, and faults at the address of the other. -/
theorem step_at_lastAddress (hfault : s.fault = none) (hpc : s.pc.toNat = 0xFFF) :
    step s = .fault (.memOutOfRange 0x1000) := by
  rw [step_of_not_fetchable hfault (by omega), hpc]
  rfl

end Sys2Proof.Machine
end

section
/-!
PROOFS. The statement about JP nnn, settled (spec/41_control_flow.md R143).
-/

open Sys2Proof Sys2Proof.Machine

/-- Settles O27, clause by clause: the encoding, the execute phase with its frame, and the step (`step_jp`) with its
target, its loop output and the fault of the step after it. -/
theorem jpTransfersToItsOperand : Obligations.JpTransfersToItsOperand := by
  refine ⟨fun w hf => ?_, fun nnn s => ⟨_, exec_jp nnn s, ?_, Frame.setPc s _⟩, fun s w hw hf => ?_⟩
  · have hknown := decodeKnown_of_family1 hf
    exact ⟨(decodeWord_of_known hknown).1, decodePair_of_known hknown⟩
  · rw [State.jump_pc_toNat, zext_toNat]
  · have hpc : (((s.beginStep w).jump (zext (operandOf w))).endStep s.pc).pc.toNat = (operandOf w).toNat := by
      rw [State.endStep_jump_pc, zext_toNat]
    have ⟨hfault, _⟩ := hw
    refine ⟨_, step_jp hw hf, hpc, loopOutput_step_jp hf s, fun hlast => step_at_lastAddress ?_ ?_⟩
    · exact (State.beginStep_fault (s := s) w).trans hfault
    · rw [hpc, hlast]
      rfl

end

section
/-!
SUPPORT. LD Vx, kk: the words of its family and its execute phase (spec/30_encoding.md R84;
spec/43_arithmetic_logic.md R171).
-/

namespace Sys2Proof.Machine

theorem decodeKnown_of_family6 {w : Word} (h : familyOf w = 0x6#4) :
    decodeKnown w = some (.ldImm (xOf w) (kkOf w)) := by
  simp [decodeKnown, h]

theorem exec_ldImm (x : Reg) (kk : Byte) (s : State) : exec (.ldImm x kk) s = .next (s.setReg x kk) := rfl

end Sys2Proof.Machine
end

section
/-!
PROOFS. The statement about LD Vx, kk, settled (spec/43_arithmetic_logic.md R171).
-/

open Sys2Proof Sys2Proof.Machine

/-- Settles O34: the encoding by the words of family 6, the result and the frame by those of one register write,
which hold for x = F too. -/
theorem ldImmediateLoadsItsByte : Obligations.LdImmediateLoadsItsByte := by
  refine ⟨fun w hf => decodeWord_of_known (decodeKnown_of_family6 hf),
    fun x kk s => ⟨_, exec_ldImm x kk s, ?_, Frame.setReg s x kk⟩⟩
  rw [State.reg_setReg, if_pos rfl]

end

section
/-!
SUPPORT. CLS: the words that only their family and their last byte select, and its execute phase
(spec/30_encoding.md R84, R86; spec/44_display.md R200).
-/

namespace Sys2Proof.Machine

/-- A word under the mask of a row selected by the last byte: its family and its last byte stay, its x is 0. -/
theorem masked_sub8_eq_wordXkk (w : Word) : w &&& 0xF0FF#16 = wordXkk (familyOf w) 0 (kkOf w) :=
  calc w &&& 0xF0FF#16 = wordXkk (familyOf w) (xOf w) (kkOf w) &&& 0xF0FF#16 := by rw [wordXkk_fields]
    _ = wordXkk (familyOf w) 0 (kkOf w) := Laws.TableRow.wordXkk_masked_sub8 _ _ _

theorem familyOf_masked_sub8 (w : Word) : familyOf (w &&& 0xF0FF#16) = familyOf w := by
  rw [masked_sub8_eq_wordXkk, familyOf_wordXkk]

theorem kkOf_masked_sub8 (w : Word) : kkOf (w &&& 0xF0FF#16) = kkOf w := by
  rw [masked_sub8_eq_wordXkk, kkOf_wordXkk]

theorem decodeKnown_of_family0 {w : Word} (h : familyOf w = 0x0#4) :
    decodeKnown w = some (decodeFamily0 w) := by
  simp [decodeKnown, h]

/-- A word of the row of CLS is known as CLS, whatever its second nibble. -/
theorem decodeKnown_of_clsRow {w : Word} (h : w &&& 0xF0FF#16 = 0x00E0#16) : decodeKnown w = some .cls := by
  have hfamily : familyOf w = 0x0#4 := by rw [← familyOf_masked_sub8, h]; rfl
  have hlast : kkOf w = 0xE0#8 := by rw [← kkOf_masked_sub8, h]; rfl
  rw [decodeKnown_of_family0 hfamily, decodeFamily0, if_pos hlast]

theorem exec_cls (s : State) : exec .cls s = .next (s.setScreen []) := rfl

theorem State.cell_setScreen_nil (s : State) (j : Nat) : (s.setScreen []).cell j = 0x00#8 := rfl

theorem Frame.setScreen (s : State) (c : List Host.Cell) : Frame { screen := true } s (s.setScreen c) :=
  { Frame.refl { screen := true } s with screen := nofun }

end Sys2Proof.Machine
end

section
/-!
PROOFS. The statement about CLS, settled (spec/44_display.md R200).
-/

open Sys2Proof Sys2Proof.Machine

/-- Settles O41: the words of the row of CLS by their family and last byte; a screen that lists no cell is 0 in every
cell, and the write of the screen changes nothing else. -/
theorem clsClearsEveryCell : Obligations.ClsClearsEveryCell :=
  ⟨fun _ hrow => decodeWord_of_known (decodeKnown_of_clsRow hrow),
    fun s => ⟨_, exec_cls s, fun j _ => State.cell_setScreen_nil s j, Frame.setScreen s []⟩⟩

end

section
/-!
SUPPORT. The decimal digits of a byte as numbers (spec/46_index_memory.md R243).
-/

namespace Sys2Proof.Machine

/-- Each digit is below 256, so none is cut when it is stored in a byte. -/
theorem bcdDigits_toNat (v : Byte) : ∃ h t o : Byte, bcdDigits v = [h, t, o] ∧ h.toNat = v.toNat / 100 ∧
    t.toNat = v.toNat / 10 % 10 ∧ o.toNat = v.toNat % 10 := by
  have hv : v.toNat < 256 := v.isLt
  refine ⟨_, _, _, rfl, ?_, ?_, ?_⟩ <;> exact (BitVec.toNat_ofNat _ _).trans (Nat.mod_eq_of_lt (by omega))

end Sys2Proof.Machine
end

section
/-!
PROOFS. The statement about the decimal digits of a byte, settled (spec/46_index_memory.md R243).
-/

open Sys2Proof Sys2Proof.Machine

/-- Settles O50: the digits by `bcdDigits_toNat`; their bounds and their sum are arithmetic of the quotients and
remainders of a number below 256. -/
theorem bcdDigitsAreTheDecimalExpansion : Obligations.BcdDigitsAreTheDecimalExpansion := by
  intro v
  obtain ⟨h, t, o, hdigits, hhundreds, htens, hones⟩ := bcdDigits_toNat v
  have hv : v.toNat < 256 := v.isLt
  have hsum : 100 * h.toNat + 10 * t.toNat + o.toNat = v.toNat := by omega
  exact ⟨h, t, o, hdigits, hhundreds, htens, hones, by omega, by omega, by omega, hsum⟩

end

section
/-!
SUPPORT. RET: the stack slots that are there, and its execute phase (spec/41_control_flow.md R142;
spec/60_exceptions.md R261).
-/

namespace Sys2Proof.Machine

variable {s : State}

theorem State.slot?_of_lt (s : State) {k : Nat} (hk : k < 16) : s.slot? k = some s.stack[k] :=
  Vector.getElem?_eq_getElem hk

/-- RET with SP at a slot transfers to that slot's value; SP goes down, but not below 0. -/
theorem exec_ret_of_slot {ret : Word} (hslot : s.slot? s.sp.toNat = some ret) :
    exec .ret s = .next ((s.setPc ret).setSp (if s.sp = 0x00#8 then s.sp else s.sp - 1)) := by
  rcases execRet_cases s with ⟨ret', hslot', hnext⟩ | ⟨hnone, _⟩
  · obtain rfl : ret = ret' := Option.some.inj (hslot.symm.trans hslot')
    exact hnext
  · exact absurd (hslot.symm.trans hnone) (Option.some_ne_none ret)

/-- With SP = 0 the write of SP stores the value it held, so RET only sets PC. -/
theorem exec_ret_of_sp_zero {ret : Word} (hsp : s.sp = 0x00#8) (hslot : s.slot? 0 = some ret) :
    exec .ret s = .next (s.setPc ret) := by
  have hret := exec_ret_of_slot (s := s) (ret := ret) (by rw [hsp]; exact hslot)
  rw [if_pos hsp] at hret
  exact hret

end Sys2Proof.Machine
end

section
/-!
PROOFS. The statement about RET on the empty stack, settled (spec/60_exceptions.md R261).
-/

open Sys2Proof Sys2Proof.Machine

/-- Settles O30: slot 0 is always there, RET with SP = 0 only sets PC to its value, and that write leaves SP. -/
theorem retOnTheEmptyStackIsDefined : Obligations.RetOnTheEmptyStackIsDefined := by
  intro s hsp
  have hslot : s.slot? 0 = some s.stack[0] := s.slot?_of_lt (by decide)
  exact ⟨_, _, hslot, exec_ret_of_sp_zero hsp hslot, rfl, hsp, Frame.setPc s _⟩

end

section
/-!
SUPPORT. Bytes written to memory as a frame, memory after init, and the two answers of a load
(spec/70_reset_and_hazards.md R290, R294, R295).
-/

namespace Sys2Proof.Machine

variable (s : State)

/-! ## Bytes written to memory -/

theorem State.writeBytes_setRomSize (n a : Nat) (bs : List Byte) :
    (s.setRomSize n).writeBytes a bs = (s.writeBytes a bs).setRomSize n := by
  induction bs generalizing s a with
  | nil => rfl
  | cons b rest ih => exact ih (s.writeByte a b) (a + 1)

theorem State.readByte_writeBytes_outside {a : Nat} {bs : List Byte} {a' : Nat}
    (h : ¬(a ≤ a' ∧ a' < a + bs.length)) : (s.writeBytes a bs).readByte a' = s.readByte a' := by
  rw [State.readByte_writeBytes, dif_neg h]

theorem State.readByte_writeBytes_add {a : Nat} {bs : List Byte} {k : Nat} (hk : k < bs.length) :
    (s.writeBytes a bs).readByte (a + k) = bs[k] := by
  rw [State.readByte_writeBytes, dif_pos ⟨Nat.le_add_right a k, Nat.add_lt_add_left hk a⟩]
  simp only [Nat.add_sub_cancel_left]

/-- Writing bytes changes memory in the range written and nothing else. -/
theorem Frame.writeBytes (a : Nat) (bs : List Byte) :
    Frame { stored := (a, bs.length) } s (s.writeBytes a bs) := by
  obtain ⟨m, hm⟩ := s.writeBytes_eq_setMem a bs
  have hmem : ∀ a', ¬(a ≤ a' ∧ a' < a + bs.length) → (s.setMem m).readByte a' = s.readByte a' :=
    fun _ hout => hm ▸ s.readByte_writeBytes_outside hout
  rw [hm]
  exact { Frame.refl { stored := (a, bs.length) } s with mem := hmem }

/-! ## Memory after init (R37, R290) -/

theorem State.readByte_init (a : Nat) : s.init.readByte a = (s.font[a]?).getD 0x00#8 := rfl

theorem State.readByte_init_font (a : Fin 80) : s.init.readByte a.val = s.font[a] := by
  rw [State.readByte_init, Vector.getElem?_eq_getElem a.isLt]
  rfl

theorem State.readByte_init_of_le {a : Nat} (ha : 80 ≤ a) : s.init.readByte a = 0x00#8 := by
  rw [State.readByte_init, Vector.getElem?_eq_none ha]
  rfl

/-! ## The answers of a load (R294 to R296) -/

variable {s}

/-- A load of a valid size: rom_size and the image, written over the state of init. -/
theorem State.load_of_valid {image : List Byte} (h : 1 ≤ image.length ∧ image.length ≤ 3584) :
    s.load image = (.ok, (s.init.setRomSize image.length).writeBytes 0x200 image) := by
  rw [State.load, if_pos ((validSize_iff _).mpr h), State.writeBytes_setRomSize]
  rfl

theorem State.load_of_invalid {image : List Byte} (h : ¬(1 ≤ image.length ∧ image.length ≤ 3584)) :
    s.load image = (.invalidFileSize, s.init) := by
  rw [State.load, if_neg (mt (validSize_iff _).mp h)]

theorem State.load_failed {image : List Byte} (h : (s.load image).1 ≠ .ok) : (s.load image).2 = s.init := by
  by_cases hsize : 1 ≤ image.length ∧ image.length ≤ 3584
  · exact absurd (by rw [State.load_of_valid hsize]) h
  · rw [State.load_of_invalid hsize]

theorem State.loadRom_unreadable_of_valid {size : Nat} (h : 1 ≤ size ∧ size ≤ 3584) :
    s.loadRom (.unreadable size) = (.fileNotGood, s.init) :=
  if_pos ((validSize_iff size).mpr h)

theorem State.loadRom_unreadable_of_invalid {size : Nat} (h : ¬(1 ≤ size ∧ size ≤ 3584)) :
    s.loadRom (.unreadable size) = (.invalidFileSize, s.init) :=
  if_neg (mt (validSize_iff size).mp h)

/-- A load attempt that does not answer OK leaves the state of init, whatever the file layer found (R297). -/
theorem State.loadRom_failed {file : RomFile} (h : (s.loadRom file).1 ≠ .ok) : (s.loadRom file).2 = s.init := by
  cases file with
  | missing => rfl
  | unreadable size =>
    by_cases hsize : 1 ≤ size ∧ size ≤ 3584
    · rw [State.loadRom_unreadable_of_valid hsize]
    · rw [State.loadRom_unreadable_of_invalid hsize]
  | readable image => exact State.load_failed h

end Sys2Proof.Machine
end

section
/-!
PROOFS. The statements about a load, settled (spec/70_reset_and_hazards.md R294 to R297).
-/

open Sys2Proof Sys2Proof.Machine

/-- Settles O4: the load writes the image over the state of init with rom_size set, so each byte inside the range is
the image's and each byte outside is the one that init leaves. -/
theorem loadInstallsTheImage : Obligations.LoadInstallsTheImage := by
  intro s image hlow hhigh
  rw [State.load_of_valid ⟨hlow, hhigh⟩]
  have hframe := Frame.writeBytes (s.init.setRomSize image.length) 0x200 image
  refine ⟨rfl, hframe.romSize, fun k hk => ⟨by omega, State.readByte_writeBytes_add _ hk⟩, fun a ha hout => ?_,
    fun a => ?_, hframe⟩
  · exact (hframe.mem a hout).trans (s.readByte_init_of_le ha)
  · have hout : ¬(0x200 ≤ a.val ∧ a.val < 0x200 + image.length) := by omega
    exact (hframe.mem a.val hout).trans (s.readByte_init_font a)

/-- Settles O5, clause by clause: the size check of an image, the answers of the file layer in their order, and the
state that a failed attempt leaves. -/
theorem failedLoadLeavesTheInitState : Obligations.FailedLoadLeavesTheInitState := by
  refine ⟨fun s image hsize => State.load_of_invalid (by omega), fun s => rfl,
    fun s size hsize => State.loadRom_unreadable_of_invalid (by omega),
    fun s size hlow hhigh => State.loadRom_unreadable_of_valid ⟨hlow, hhigh⟩, fun s image => rfl,
    fun s file hfailed => State.loadRom_failed hfailed, fun s image hlow hhigh => ?_⟩
  rw [State.load_of_valid ⟨hlow, hhigh⟩]

end

section
/-!
SUPPORT. The decoder against the encoder and against the opcode table (spec/30_encoding.md R84 to R89, R93): a word
put together again from its fields, the known forms family by family, and the rows that a family can match.
-/

namespace Sys2Proof

open Machine

variable {w : Word}

/-! ## Decoding what was encoded -/

theorem decode_bytes (w : Word) (rest : List Byte) :
    decode (highByte w :: lowByte w :: rest) = .ok (decodeWord w, rest) := by
  rw [decode, wordOfBytes_bytes]

theorem decodeKnown_encodeWord {i : Instr} (h : i.wellFormed = true) : decodeKnown (encodeWord i) = some i := by
  cases i
  case sys nnn =>
    obtain ⟨hcls, hret⟩ : nnn.extractLsb' 0 8 ≠ 0xE0#8 ∧ nnn.extractLsb' 0 8 ≠ 0xEE#8 := by
      simpa [Instr.wellFormed, sysIsNotCls, sysIsNotRet] using h
    simp [encodeWord, decodeKnown, decodeFamily0, hcls, hret]
  case cls | ret => rfl
  all_goals simp [encodeWord, decodeKnown, decodeFamily8, decodeFamilyE, decodeFamilyF]

/-! ## A word from its fields -/

theorem wordNnn_of_fields {f : BitVec 4} (hf : familyOf w = f) : wordNnn f (operandOf w) = w := by
  rw [← hf, wordNnn_fields]

theorem wordXkk_of_fields {f : BitVec 4} {kk : Byte} (hf : familyOf w = f) (hk : kkOf w = kk) :
    wordXkk f (xOf w) kk = w := by
  rw [← hf, ← hk, wordXkk_fields]

theorem wordXyn_of_fields {f n : BitVec 4} (hf : familyOf w = f) (hn : nOf w = n) :
    wordXyn f (xOf w) (yOf w) n = w := by
  rw [← hf, ← hn, wordXyn_fields]

/-- The values of a nibble, those first that are families whose words select their form by a further field (R84). -/
theorem nibble_cases : ∀ f : BitVec 4, f = 0x0#4 ∨ f = 0x5#4 ∨ f = 0x8#4 ∨ f = 0x9#4 ∨ f = 0xE#4 ∨ f = 0xF#4 ∨
    f = 0x1#4 ∨ f = 0x2#4 ∨ f = 0x3#4 ∨ f = 0x4#4 ∨ f = 0x6#4 ∨ f = 0x7#4 ∨ f = 0xA#4 ∨ f = 0xB#4 ∨ f = 0xC#4 ∨
    f = 0xD#4 := by
  decide

/-! ## Encoding what was decoded -/

/-- SYS is its word; of CLS and RET the second nibble is not looked at (D10). -/
theorem encodeWord_decodeFamily0 (hf : familyOf w = 0x0#4) :
    encodeWord (decodeFamily0 w) =
      if decodeFamily0 w = .cls ∨ decodeFamily0 w = .ret then w &&& 0xF0FF#16 else w := by
  rw [masked_sub8_eq_wordXkk, hf]
  by_cases hcls : kkOf w = 0xE0#8
  · simp [decodeFamily0, hcls]; rfl
  by_cases hret : kkOf w = 0xEE#8
  · simp [decodeFamily0, hret]; rfl
  · simp [decodeFamily0, hcls, hret, encodeWord, wordNnn_of_fields hf]

theorem encodeWord_of_decodeFamily8 {i : Instr} (hf : familyOf w = 0x8#4) (h : decodeFamily8 w = some i) :
    i ≠ .cls ∧ i ≠ .ret ∧ encodeWord i = w := by
  unfold decodeFamily8 at h
  split at h
  case h_10 => cases h
  all_goals
    cases h
    exact ⟨nofun, nofun, wordXyn_of_fields hf (BitVec.eq_of_toNat_eq ‹_›)⟩

theorem encodeWord_of_decodeFamilyE {i : Instr} (hf : familyOf w = 0xE#4) (h : decodeFamilyE w = some i) :
    i ≠ .cls ∧ i ≠ .ret ∧ encodeWord i = w := by
  unfold decodeFamilyE at h
  split_ifs at h <;> cases h <;> exact ⟨nofun, nofun, wordXkk_of_fields hf ‹_›⟩

theorem encodeWord_of_decodeFamilyF {i : Instr} (hf : familyOf w = 0xF#4) (h : decodeFamilyF w = some i) :
    i ≠ .cls ∧ i ≠ .ret ∧ encodeWord i = w := by
  unfold decodeFamilyF at h
  split_ifs at h <;> cases h <;> exact ⟨nofun, nofun, wordXkk_of_fields hf ‹_›⟩

theorem decodeKnown_of_family8 (hf : familyOf w = 0x8#4) : decodeKnown w = decodeFamily8 w := by
  simp [decodeKnown, hf]

theorem decodeKnown_of_familyE (hf : familyOf w = 0xE#4) : decodeKnown w = decodeFamilyE w := by
  simp [decodeKnown, hf]

/-- A known word is of family 0x0, or it is the encoding of its form, by the fields that the form keeps. -/
theorem decodeKnown_cases {i : Instr} (h : decodeKnown w = some i) :
    familyOf w = 0x0#4 ∧ i = decodeFamily0 w ∨ i ≠ .cls ∧ i ≠ .ret ∧ encodeWord i = w := by
  unfold decodeKnown at h
  split at h
  case h_1 hf => exact .inl ⟨BitVec.eq_of_toNat_eq hf, (Option.some.inj h).symm⟩
  all_goals refine .inr ?_
  case h_9 hf => exact encodeWord_of_decodeFamily8 (BitVec.eq_of_toNat_eq hf) h
  case h_15 hf => exact encodeWord_of_decodeFamilyE (BitVec.eq_of_toNat_eq hf) h
  case h_16 =>
    have hf : (familyOf w).toNat = 15 := by
      have hlt : (familyOf w).toNat < 16 := (familyOf w).isLt
      simp only [imp_false] at *
      omega
    exact encodeWord_of_decodeFamilyF (BitVec.eq_of_toNat_eq hf) h
  case h_2 hf | h_3 hf | h_11 hf | h_12 hf =>
    cases h
    exact ⟨nofun, nofun, wordNnn_of_fields (BitVec.eq_of_toNat_eq hf)⟩
  case h_4 hf | h_5 hf | h_7 hf | h_8 hf | h_13 hf =>
    cases h
    exact ⟨nofun, nofun, wordXkk_of_fields (BitVec.eq_of_toNat_eq hf) rfl⟩
  case h_6 hf | h_10 hf =>
    split_ifs at h with hn
    cases h
    exact ⟨nofun, nofun, wordXyn_of_fields (BitVec.eq_of_toNat_eq hf) hn⟩
  case h_14 hf =>
    cases h
    exact ⟨nofun, nofun, wordXyn_of_fields (BitVec.eq_of_toNat_eq hf) rfl⟩

theorem encodeWord_of_decodeKnown {i : Instr} (h : decodeKnown w = some i) :
    encodeWord i = if i = .cls ∨ i = .ret then w &&& 0xF0FF#16 else w := by
  rcases decodeKnown_cases h with ⟨hf, rfl⟩ | ⟨hcls, hret, henc⟩
  · exact encodeWord_decodeFamily0 hf
  · rw [if_neg (not_or.mpr ⟨hcls, hret⟩), henc]

/-- Only a SYS can be ill formed, and family 0x0 decodes to none whose last byte is that of CLS or RET (R89). -/
theorem wellFormed_decodeFamily0 (hf : familyOf w = 0x0#4) : (decodeFamily0 w).wellFormed = true := by
  unfold decodeFamily0
  split_ifs with hcls hret
  · rfl
  · rfl
  · rw [← wordNnn_of_fields hf, kkOf_wordNnn] at hcls hret
    simp [Instr.wellFormed, sysIsNotCls, sysIsNotRet, hcls, hret]

theorem wellFormed_decodeWord (w : Word) : (decodeWord w).wellFormed = true := by
  unfold decodeWord
  by_cases hf : familyOf w = 0x0#4
  · rw [decodeKnown_of_family0 hf]
    exact wellFormed_decodeFamily0 hf
  cases hknown : decodeKnown w with
  | none => rfl
  | some i =>
    cases i
    case sys nnn =>
      have henc : wordNnn 0x0#4 nnn = w := encodeWord_of_decodeKnown hknown
      exact absurd (by rw [← henc, familyOf_wordNnn]) hf
    all_goals rfl

/-! ## The rows of the opcode table (R86) -/

theorem masked_family_eq_wordNnn (w : Word) : w &&& 0xF000#16 = wordNnn (familyOf w) 0x000#12 :=
  calc w &&& 0xF000#16 = wordNnn (familyOf w) (operandOf w) &&& 0xF000#16 := by rw [wordNnn_fields]
    _ = wordNnn (familyOf w) 0x000#12 := Laws.TableRow.wordNnn_masked _ _

theorem masked_sub_eq_wordXyn (w : Word) : w &&& 0xF00F#16 = wordXyn (familyOf w) 0 0 (nOf w) :=
  calc w &&& 0xF00F#16 = wordXyn (familyOf w) (xOf w) (yOf w) (nOf w) &&& 0xF00F#16 := by rw [wordXyn_fields]
    _ = wordXyn (familyOf w) 0 0 (nOf w) := Laws.TableRow.wordXyn_masked_sub _ _ _ _

/-- A row selected by the family alone matches the words of its family. -/
theorem familyRow_iff {f : BitVec 4} : w &&& 0xF000#16 = wordNnn f 0x000#12 ↔ familyOf w = f := by
  rw [masked_family_eq_wordNnn]
  exact ⟨fun h => by simpa using congrArg familyOf h, fun h => by rw [h]⟩

/-- A row selected by the last byte matches the words of its family with that byte. -/
theorem sub8Row_iff {f : BitVec 4} {kk : Byte} :
    w &&& 0xF0FF#16 = wordXkk f 0 kk ↔ familyOf w = f ∧ kkOf w = kk := by
  rw [masked_sub8_eq_wordXkk]
  exact ⟨fun h => ⟨by simpa using congrArg familyOf h, by simpa using congrArg kkOf h⟩,
    fun ⟨hf, hk⟩ => by rw [hf, hk]⟩

/-- A row selected by the last nibble matches the words of its family with that nibble. -/
theorem subRow_iff {f n : BitVec 4} :
    w &&& 0xF00F#16 = wordXyn f 0 0 n ↔ familyOf w = f ∧ nOf w = n := by
  rw [masked_sub_eq_wordXyn]
  exact ⟨fun h => ⟨by simpa using congrArg familyOf h, by simpa using congrArg nOf h⟩,
    fun ⟨hf, hn⟩ => by rw [hf, hn]⟩

/-- A row of the table matches words of one family only, that of its match value. -/
theorem familyOf_of_row {r : OpcodeRow} (hr : r ∈ opcodeRows) (hw : w &&& r.mask = r.value) :
    familyOf w = familyOf r.value := by
  have hmask : ∀ r ∈ opcodeRows, r.mask &&& 0xF000#16 = 0xF000#16 := by decide
  have hfamily : w &&& 0xF000#16 = r.value &&& 0xF000#16 := by rw [← hw, BitVec.and_assoc, hmask r hr]
  exact familyRow_iff.mp (hfamily.trans (masked_family_eq_wordNnn _))

/-- So the row of a word is looked for among the rows of its family. -/
theorem rowOf_of_family {f : BitVec 4} {rows : List OpcodeRow} (hf : familyOf w = f)
    (hrows : opcodeRows.filter (fun r => familyOf r.value == f) = rows) :
    rowOf w = rows.find? fun r => w &&& r.mask == r.value := by
  rw [← hrows, List.find?_filter, rowOf]
  refine List.find?_congr fun r hr => ?_
  rw [← hf]
  by_cases hw : w &&& r.mask = r.value
  · simp [hw, familyOf_of_row hr hw]
  · simp [hw]

/-- A family with one row, for all of its words. -/
theorem index_rowOf_of_family {f : BitVec 4} {k : OpIndex} (hf : familyOf w = f)
    (hrows : opcodeRows.filter (fun r => familyOf r.value == f) = [⟨k, 0xF000#16, wordNnn f 0x000#12⟩]) :
    (rowOf w).map OpcodeRow.index = some k := by
  rw [rowOf_of_family hf hrows, List.find?_cons_of_pos (by simpa using familyRow_iff.mpr hf)]
  rfl

/-- A family whose rows are selected by the last nibble. -/
theorem index_rowOf_of_sub {f : BitVec 4} (ps : List (OpIndex × BitVec 4)) (hf : familyOf w = f)
    (hrows : opcodeRows.filter (fun r => familyOf r.value == f) =
      ps.map fun p => ⟨p.1, 0xF00F#16, wordXyn f 0 0 p.2⟩) :
    (rowOf w).map OpcodeRow.index = (ps.find? fun p => nOf w == p.2).map Prod.fst := by
  rw [rowOf_of_family hf hrows, List.find?_map, Option.map_map]
  simp only [Function.comp_def, Bool.beq_eq_decide_eq, subRow_iff, hf, true_and]

/-- A family whose rows are selected by the last byte. -/
theorem index_rowOf_of_sub8 {f : BitVec 4} (ps : List (OpIndex × Byte)) (hf : familyOf w = f)
    (hrows : opcodeRows.filter (fun r => familyOf r.value == f) =
      ps.map fun p => ⟨p.1, 0xF0FF#16, wordXkk f 0 p.2⟩) :
    (rowOf w).map OpcodeRow.index = (ps.find? fun p => kkOf w == p.2).map Prod.fst := by
  rw [rowOf_of_family hf hrows, List.find?_map, Option.map_map]
  simp only [Function.comp_def, Bool.beq_eq_decide_eq, sub8Row_iff, hf, true_and]

theorem index_rowOf_family0 (hf : familyOf w = 0x0#4) :
    (rowOf w).map OpcodeRow.index = some (decodeFamily0 w).index := by
  rw [rowOf_of_family hf (rows := [⟨1, 0xF0FF#16, wordXkk 0x0#4 0 0xE0#8⟩, ⟨2, 0xF0FF#16, wordXkk 0x0#4 0 0xEE#8⟩,
    ⟨0, 0xF000#16, wordNnn 0x0#4 0x000#12⟩]) rfl]
  by_cases hcls : kkOf w = 0xE0#8
  · simp [decodeFamily0, hf, hcls, sub8Row_iff, Instr.index]
  by_cases hret : kkOf w = 0xEE#8
  · simp [decodeFamily0, hf, hret, sub8Row_iff, Instr.index]
  · simp [decodeFamily0, hf, hcls, hret, sub8Row_iff, familyRow_iff, Instr.index]

theorem index_rowOf_family8 (hf : familyOf w = 0x8#4) :
    (rowOf w).map OpcodeRow.index = (decodeFamily8 w).map Instr.index := by
  rw [index_rowOf_of_sub [(10, 0x0), (11, 0x1), (12, 0x2), (13, 0x3), (14, 0x4), (15, 0x5), (16, 0x6), (17, 0x7),
    (18, 0xE)] hf rfl]
  rcases nibble_cases (nOf w) with
    hn | hn | hn | hn | hn | hn | hn | hn | hn | hn | hn | hn | hn | hn | hn | hn <;>
    simp [hn, decodeFamily8, Instr.index]

theorem index_rowOf_familyE (hf : familyOf w = 0xE#4) :
    (rowOf w).map OpcodeRow.index = (decodeFamilyE w).map Instr.index := by
  rw [index_rowOf_of_sub8 [(24, 0x9E), (25, 0xA1)] hf rfl, decodeFamilyE]
  split_ifs <;> simp [*, Instr.index]

theorem index_rowOf_familyF (hf : familyOf w = 0xF#4) :
    (rowOf w).map OpcodeRow.index = (decodeFamilyF w).map Instr.index := by
  rw [index_rowOf_of_sub8 [(26, 0x07), (27, 0x0A), (28, 0x15), (29, 0x18), (30, 0x1E), (31, 0x29), (32, 0x33),
    (33, 0x55), (34, 0x65)] hf rfl, decodeFamilyF]
  split_ifs <;> simp [*, Instr.index]

/-! ## The unknown words of the families with selectors (R88) -/

theorem decodeFamily8_eq_none : decodeFamily8 w = none ↔
    nOf w ∈ [0x8#4, 0x9#4, 0xA#4, 0xB#4, 0xC#4, 0xD#4, 0xF#4] := by
  rcases nibble_cases (nOf w) with
    hn | hn | hn | hn | hn | hn | hn | hn | hn | hn | hn | hn | hn | hn | hn | hn <;>
    simp [hn, decodeFamily8]

theorem decodeFamilyE_eq_none : decodeFamilyE w = none ↔ kkOf w ∉ [0x9E#8, 0xA1#8] := by
  unfold decodeFamilyE
  split_ifs <;> simp [*]

theorem decodeFamilyF_eq_none : decodeFamilyF w = none ↔
    kkOf w ∉ [0x07#8, 0x0A#8, 0x15#8, 0x18#8, 0x1E#8, 0x29#8, 0x33#8, 0x55#8, 0x65#8] := by
  unfold decodeFamilyF
  split_ifs <;> simp [*]

end Sys2Proof
end

section
/-!
PROOFS. The statements about the encoding and the opcode table, settled (spec/30_encoding.md R84 to R89, R93).
-/

open Sys2Proof Sys2Proof.Machine

/-- Settles O7: the bytes of a word decode to the form of that word, and the word of a well-formed instruction has
that instruction as its form, constructor by constructor (`decodeKnown_encodeWord`). -/
theorem decodingInvertsEncoding : Obligations.DecodingInvertsEncoding := by
  intro i rest hwf
  have hform : decodeWord (encodeWord i) = i := (decodeWord_of_known (decodeKnown_encodeWord hwf)).1
  exact (decode_bytes (encodeWord i) rest).trans (by rw [hform])

/-- Settles O8: each family keeps the fields of its words in the form (`encodeWord_of_decodeKnown`), and family 0x0
decodes to no ill-formed SYS. -/
theorem encodingInvertsDecoding : Obligations.EncodingInvertsDecoding := by
  refine ⟨fun w i hknown hcls hret => ?_, fun w i hknown hi => ?_, fun w => ?_⟩
  · rw [encodeWord_of_decodeKnown hknown, if_neg (not_or.mpr ⟨hcls, hret⟩)]
  · rw [encodeWord_of_decodeKnown hknown, if_pos hi]
  · exact wellFormed_decodeWord w

/-- Settles O9, family by family: the rows of a family select by what its decoder looks at, and a family without a
further field has one row. -/
theorem decoderIsTheOpcodeTable : Obligations.DecoderIsTheOpcodeTable := by
  intro w
  rcases nibble_cases (familyOf w) with
    hf | hf | hf | hf | hf | hf | hf | hf | hf | hf | hf | hf | hf | hf | hf | hf
  · rw [index_rowOf_family0 hf, decodeKnown_of_family0 hf, Option.map_some]
  · rw [index_rowOf_of_sub [(7, 0x0#4)] hf rfl]
    by_cases hn : nOf w = 0x0#4 <;> simp [decodeKnown, hf, hn, Instr.index]
  · rw [index_rowOf_family8 hf, decodeKnown_of_family8 hf]
  · rw [index_rowOf_of_sub [(19, 0x0#4)] hf rfl]
    by_cases hn : nOf w = 0x0#4 <;> simp [decodeKnown, hf, hn, Instr.index]
  · rw [index_rowOf_familyE hf, decodeKnown_of_familyE hf]
  · rw [index_rowOf_familyF hf, decodeKnown_of_familyF hf]
  all_goals
    rw [index_rowOf_of_family hf rfl]
    simp [decodeKnown, hf, Instr.index]

/-- Settles O10, family by family: a family without a further field knows all of its words. -/
theorem unknownWordsAreExactlyTheListed : Obligations.UnknownWordsAreExactlyTheListed := by
  intro w
  rcases nibble_cases (familyOf w) with
    hf | hf | hf | hf | hf | hf | hf | hf | hf | hf | hf | hf | hf | hf | hf | hf
  · simp [decodeKnown_of_family0 hf, hf]
  · simp [decodeKnown, hf]
  · rw [decodeKnown_of_family8 hf, decodeFamily8_eq_none]
    simp [hf]
  · simp [decodeKnown, hf]
  · rw [decodeKnown_of_familyE hf, decodeFamilyE_eq_none]
    simp [hf]
  · rw [decodeKnown_of_familyF hf, decodeFamilyF_eq_none]
    simp [hf]
  all_goals simp [decodeKnown, hf]

/-- Settles O6: each word has its family and selector written out. -/
theorem sampleWordsDecode : Obligations.SampleWordsDecode := by
  refine ⟨?_, ?_, ?_, ?_, ?_, ?_, ?_⟩ <;> rfl

end

section
/-!
SUPPORT. What each instruction may change and when it faults, said once for all 35 (spec/40_dispatch_and_cycle.md
R114; spec/60_exceptions.md R264): `exec_frame` and `exec_cases`.
-/

namespace Sys2Proof.Machine

variable {s t : State} {i : Instr}

/-! ## Frames of the shared operations -/

theorem Frame.setI (s : State) (a : Word) : Frame { i := true } s (s.setI a) :=
  { Frame.refl { i := true } s with i := nofun }

theorem Frame.setSp (s : State) (b : Byte) : Frame { sp := true } s (s.setSp b) :=
  { Frame.refl { sp := true } s with sp := nofun }

theorem Frame.skipIf (s : State) (c : Bool) : Frame { pc := true } s (s.skipIf c) := by
  rw [State.skipIf_eq]
  exact Frame.setPc s _

theorem Frame.setResultAndFlag (s : State) (x : Reg) (result flag : Byte) :
    Frame { regs := [x, 15] } s (s.setResultAndFlag x result flag) :=
  { Frame.refl { regs := [x, 15] } s with
    regs := fun k hk => by
      obtain ⟨hx, hflag⟩ : k ≠ x ∧ k ≠ 15 := by simpa using hk
      exact (State.reg_setResultAndFlag s x k _ _).trans ((if_neg hflag).trans (if_neg hx)) }

theorem State.slot?_setSlot_of_ne (s : State) {k k' : Nat} (a : Word) (h : k' ≠ k) :
    (s.setSlot k a).slot? k' = s.slot? k' := by
  simp only [State.slot?, State.setSlot_stack]
  exact Vector.getElem?_setIfInBounds_ne h.symm

theorem State.slot?_setSlot_same (s : State) {k : Nat} (a : Word) (h : k < 16) :
    (s.setSlot k a).slot? k = some a := by
  simp only [State.slot?, State.setSlot_stack]
  exact Vector.getElem?_setIfInBounds_self_of_lt h

theorem Frame.setSlot (s : State) (k : Nat) (a : Word) : Frame { slots := [k] } s (s.setSlot k a) :=
  { Frame.refl { slots := [k] } s with
    slots := fun k' hk => State.slot?_setSlot_of_ne s a (by simpa using hk) }

/-- The new screen and the collision of a sprite. -/
theorem Frame.setScreen_setFlag (s : State) (c : List Host.Cell) (flag : Byte) :
    Frame { regs := [15], screen := true } s ((s.setScreen c).setFlag flag) :=
  { Frame.refl { regs := [15], screen := true } s with
    screen := nofun
    regs := fun k hk => (State.reg_setFlag (s.setScreen c) k flag).trans (if_neg fun hf => hk (by simp [hf]; rfl)) }

theorem length_regsThrough (s : State) (x : Reg) : (s.regsThrough x).length = x.val + 1 := by
  simp [State.regsThrough]

theorem Frame.writeBytes_regsThrough (s : State) (x : Reg) :
    Frame { stored := (s.i.toNat, x.val + 1) } s (s.writeBytes s.i.toNat (s.regsThrough x)) := by
  rw [← length_regsThrough s x]
  exact Frame.writeBytes s _ _

theorem mem_regsLoaded (x k : Reg) : k ∈ (List.finRange 16).filter (fun k => k ≤ x) ↔ k ≤ x := by
  simp only [List.mem_filter, List.mem_finRange, true_and, decide_eq_true_eq]

theorem Frame.setRegs (s : State) {rs : List Reg} {w : Vector Byte 16}
    (hw : ∀ k, k ∉ rs → (s.setRegs w).reg k = s.reg k) : Frame { regs := rs } s (s.setRegs w) :=
  { Frame.refl { regs := rs } s with regs := hw }

theorem Frame.setRegs_regsLoaded (s : State) (x : Reg) :
    Frame { regs := (List.finRange 16).filter fun k => k ≤ x } s (s.setRegs (s.regsLoaded x)) :=
  Frame.setRegs s fun k hk =>
    (s.reg_regsLoaded x k).trans (if_neg fun hle => hk ((mem_regsLoaded x k).mpr hle))

/-! ## The key skips -/

theorem exec_skp_of_key {x : Reg} {pressed : Bool} (hkey : s.key? (s.reg x).toNat = some pressed) :
    exec (.skp x) s = .next (s.skipIf pressed) := by
  rw [exec, execSkp, hkey]

theorem exec_sknp_of_key {x : Reg} {pressed : Bool} (hkey : s.key? (s.reg x).toNat = some pressed) :
    exec (.sknp x) s = .next (s.skipIf !pressed) := by
  rw [exec, execSknp, hkey]

theorem exec_skp_of_no_key {x : Reg} (hkey : s.key? (s.reg x).toNat = none) :
    exec (.skp x) s = .fault (.keyOutOfRange (s.reg x)) := by
  rw [exec, execSkp, hkey, raiseFault]

theorem exec_sknp_of_no_key {x : Reg} (hkey : s.key? (s.reg x).toNat = none) :
    exec (.sknp x) s = .fault (.keyOutOfRange (s.reg x)) := by
  rw [exec, execSknp, hkey, raiseFault]

/-! ## What an instruction may change -/

/-- What the execute phase of an instruction may change, from its rule (R141 to R247). -/
def changesOf (s : State) : Instr → Changes
  | .sys _ => {}
  | .cls => { screen := true }
  | .ret => { pc := true, sp := true }
  | .call _ => { pc := true, sp := true, slots := [(s.sp.toNat + 1) % 256] }
  | .jp _ | .jpV0 _ => { pc := true }
  | .seImm _ _ | .sneImm _ _ | .seReg _ _ | .sneReg _ _ | .skp _ | .sknp _ => { pc := true }
  | .ldImm x _ | .addImm x _ | .rnd x _ | .ldVxDt x => { regs := [x] }
  | .ldReg x _ | .or x _ | .and x _ | .xor x _ => { regs := [x] }
  | .addReg x _ | .sub x _ | .shr x _ | .subn x _ | .shl x _ => { regs := [x, 15] }
  | .ldI _ | .addI _ | .ldF _ => { i := true }
  | .drw _ _ _ => { regs := [15], screen := true }
  | .ldVxK x => { regs := [x], pc := true }
  | .ldDtVx _ => { dt := true }
  | .ldStVx _ => { st := true }
  | .ldB _ => { stored := (s.i.toNat, 3) }
  | .ldMemVx x => { stored := (s.i.toNat, x.val + 1) }
  | .ldVxMem x => { regs := (List.finRange 16).filter fun k => k ≤ x }

/-! ### The instructions that may change a field, by their indices -/

theorem changesOf_i (s : State) (i : Instr) :
    (changesOf s i).i = decide (i.index ∈ ([20, 30, 31] : List OpIndex)) := by
  cases i <;> rfl

theorem changesOf_pc (s : State) (i : Instr) :
    (changesOf s i).pc = decide (i.index ∈ ([2, 3, 4, 5, 6, 7, 19, 21, 24, 25, 27] : List OpIndex)) := by
  cases i <;> rfl

theorem changesOf_sp (s : State) (i : Instr) :
    (changesOf s i).sp = decide (i.index ∈ ([2, 4] : List OpIndex)) := by
  cases i <;> rfl

theorem changesOf_screen (s : State) (i : Instr) :
    (changesOf s i).screen = decide (i.index ∈ ([1, 23] : List OpIndex)) := by
  cases i <;> rfl

theorem changesOf_slots (s : State) (i : Instr) :
    (changesOf s i).slots = if i.index = 4 then [(s.sp.toNat + 1) % 256] else [] := by
  cases i <;> rfl

theorem changesOf_stored {i : Instr} (s : State) (hi : i.index ∉ ([32, 33] : List OpIndex)) :
    (changesOf s i).stored = (0, 0) := by
  cases i
  case ldB | ldMemVx => simp [Instr.index] at hi
  all_goals rfl

theorem changesOf_regs {i : Instr} (s : State) (hi : i.index ∈
    ([0, 1, 2, 3, 4, 5, 6, 7, 19, 20, 21, 24, 25, 28, 29, 30, 31, 32, 33] : List OpIndex)) :
    (changesOf s i).regs = [] := by
  cases i
  case ldImm | addImm | ldReg | or | and | xor | addReg | sub | shr | subn | shl | rnd | drw | ldVxDt | ldVxK |
      ldVxMem =>
    simp [Instr.index] at hi
  all_goals rfl

/-- SP counts modulo 256 (R144). -/
theorem sp_succ_toNat (s : State) : (s.sp + 1).toNat = (s.sp.toNat + 1) % 256 := BitVec.toNat_add _ _

/-- An execute phase that goes on changes nothing but what `changesOf` names. -/
theorem exec_frame (h : exec i s = .next t) : Frame (changesOf s i) s t := by
  cases i
  case ret =>
    rcases execRet_cases s with ⟨ret, _, hret⟩ | ⟨_, hret⟩ <;> cases hret.symm.trans h
    exact { Frame.refl { pc := true, sp := true } s with pc := nofun, sp := nofun }
  case call nnn =>
    rcases execCall_cases nnn s with ⟨_, hcall⟩ | ⟨_, hcall⟩ <;> cases hcall.symm.trans h
    rw [sp_succ_toNat]
    exact
      { Frame.refl (changesOf s (.call nnn)) s with
        pc := nofun
        sp := nofun
        slots := (Frame.setSlot s _ s.pc).slots }
  case ldVxK x =>
    rcases execLdVxK_cases x s with ⟨_, hkey⟩ | ⟨slot, _, hkey⟩ <;> cases hkey.symm.trans h
    · exact { Frame.refl (changesOf s (.ldVxK x)) s with pc := nofun }
    · exact { Frame.refl (changesOf s (.ldVxK x)) s with
        pc := nofun
        regs := (Frame.setReg s x _).regs }
  case skp x =>
    rcases execKey_cases s (s.reg x) with ⟨_, hkey, _⟩ | ⟨hkey, _⟩
    · cases (exec_skp_of_key hkey).symm.trans h
      exact Frame.skipIf s _
    · cases (exec_skp_of_no_key hkey).symm.trans h
  case sknp x =>
    rcases execKey_cases s (s.reg x) with ⟨_, hkey, _⟩ | ⟨hkey, _⟩
    · cases (exec_sknp_of_key hkey).symm.trans h
      exact Frame.skipIf s _
    · cases (exec_sknp_of_no_key hkey).symm.trans h
  case drw x y n =>
    obtain ⟨rfl, _⟩ := guardAccess_next h
    exact Frame.setScreen_setFlag s _ _
  case ldB x =>
    obtain ⟨rfl, _⟩ := guardAccess_next h
    exact Frame.writeBytes s _ (bcdDigits (s.reg x))
  case ldMemVx x =>
    obtain ⟨rfl, _⟩ := guardAccess_next h
    exact Frame.writeBytes_regsThrough s x
  case ldVxMem x =>
    obtain ⟨rfl, _⟩ := guardAccess_next h
    exact Frame.setRegs_regsLoaded s x
  case sys => cases h; exact Frame.refl _ _
  case cls => cases h; exact Frame.setScreen s _
  case jp | jpV0 => cases h; exact Frame.setPc s _
  case seImm | sneImm | seReg | sneReg => cases h; exact Frame.skipIf s _
  case addReg | sub | shr | subn | shl => cases h; exact Frame.setResultAndFlag s _ _ _
  case ldI | addI | ldF => cases h; exact Frame.setI s _
  case ldDtVx => cases h; exact Frame.setDt s _
  case ldStVx => cases h; exact Frame.setSt s _
  case ldImm | addImm | rnd | ldVxDt | ldReg | or | and | xor => cases h; exact Frame.setReg s _ _

/-! ## When an instruction faults -/

/-- The fault that the execute phase of an instruction raises, with its reason (R264). -/
def faultRaised (s : State) : Instr → Option Fault
  | .ret => if 16 ≤ s.sp.toNat then some (.stackOutOfRange s.sp) else none
  | .call _ => if 16 ≤ (s.sp.toNat + 1) % 256 then some (.stackOverflow s.sp) else none
  | .skp x | .sknp x => if 16 ≤ (s.reg x).toNat then some (.keyOutOfRange (s.reg x)) else none
  | .drw _ _ n => accessFault s.i.toNat n.val
  | .ldB _ => accessFault s.i.toNat 3
  | .ldMemVx x | .ldVxMem x => accessFault s.i.toNat (x.val + 1)
  | _ => none

theorem guardAccess_exec {first count : Nat} {next : State} {i : Instr} {s : State}
    (hi : exec i s = guardAccess first count next) (hr : faultRaised s i = accessFault first count) :
    (faultRaised s i = none ∧ ∃ t, exec i s = .next t) ∨ ∃ r, faultRaised s i = some r ∧ exec i s = .fault r := by
  rw [hi, hr, guardAccess]
  cases accessFault first count with
  | none => exact .inl ⟨rfl, _, rfl⟩
  | some r => exact .inr ⟨r, rfl, rfl⟩

/-- The execute phase goes on when `faultRaised` names no fault, and else raises the fault that it names. -/
theorem exec_cases (i : Instr) (s : State) :
    (faultRaised s i = none ∧ ∃ t, exec i s = .next t) ∨ ∃ r, faultRaised s i = some r ∧ exec i s = .fault r := by
  cases i
  case ret =>
    by_cases hsp : 16 ≤ s.sp.toNat
    · rcases execRet_cases s with ⟨_, hslot, _⟩ | ⟨_, hret⟩
      · rw [State.slot?, Vector.getElem?_eq_none hsp] at hslot
        cases hslot
      · exact .inr ⟨_, if_pos hsp, hret⟩
    · rcases execRet_cases s with ⟨_, _, hret⟩ | ⟨hslot, _⟩
      · exact .inl ⟨if_neg hsp, _, hret⟩
      · rw [State.slot?_of_lt s (by omega)] at hslot
        cases hslot
  case call nnn =>
    rcases execCall_cases nnn s with ⟨hsp, hcall⟩ | ⟨hsp, hcall⟩ <;> rw [sp_succ_toNat] at hsp
    · exact .inl ⟨if_neg (by omega), _, hcall⟩
    · exact .inr ⟨_, if_pos hsp, hcall⟩
  case skp x =>
    rcases execKey_cases s (s.reg x) with ⟨pressed, hkey, hlt⟩ | ⟨hkey, hle⟩
    · exact .inl ⟨if_neg (by omega), _, exec_skp_of_key hkey⟩
    · exact .inr ⟨_, if_pos hle, exec_skp_of_no_key hkey⟩
  case sknp x =>
    rcases execKey_cases s (s.reg x) with ⟨pressed, hkey, hlt⟩ | ⟨hkey, hle⟩
    · exact .inl ⟨if_neg (by omega), _, exec_sknp_of_key hkey⟩
    · exact .inr ⟨_, if_pos hle, exec_sknp_of_no_key hkey⟩
  case ldVxK x =>
    rcases execLdVxK_cases x s with ⟨_, hkey⟩ | ⟨_, _, hkey⟩ <;> exact .inl ⟨rfl, _, hkey⟩
  case drw | ldB | ldMemVx | ldVxMem => exact guardAccess_exec rfl rfl
  all_goals exact .inl ⟨rfl, _, rfl⟩

theorem exec_eq_fault_iff {r : Fault} : exec i s = .fault r ↔ faultRaised s i = some r := by
  rcases exec_cases i s with ⟨hnone, t, ht⟩ | ⟨r', hsome, hr'⟩
  · simp [hnone, ht]
  · simp [hsome, hr', eq_comm]

/-- An access that leaves memory faults with the first address outside (R60). -/
theorem accessFault_of_outside {first count : Nat} (hcount : 1 ≤ count) (hout : 4096 < first + count) :
    accessFault first count = some (.memOutOfRange (if 4096 ≤ first then first else 4096)) := by
  rw [accessFault_eq_some]
  exact ⟨hcount, hout, by rw [max_def']⟩

/-! ## The step -/

/-- The step of a state with no pending fault at a word in memory, put together (R111, R114). -/
theorem runWord_eq (s : State) (w : Word) :
    runWord s w = mapNext (fun t => t.endStep s.pc) (exec (decodeWord w) (s.beginStep w)) := by
  unfold runWord
  cases exec (decodeWord w) (s.beginStep w) <;> rfl

theorem changesOf_beginStep (s : State) (w : Word) (i : Instr) : changesOf (s.beginStep w) i = changesOf s i := by
  cases i <;> simp [changesOf]

theorem faultRaised_beginStep (s : State) (w : Word) (i : Instr) :
    faultRaised (s.beginStep w) i = faultRaised s i := by
  cases i <;> simp [faultRaised]

/-- A step that goes on changes what its instruction names, PC, the timers and the decoder state, records the PC it
started with and uses up its draws; nothing else (R111 to R117). -/
theorem step_frame (h : step s = .next t) :
    Frame { changesOf s (decodeWord (s.fetch16 s.pc.toNat)) with pc := true, dt := true, st := true }
      (((s.setDecoded (decodePair (s.fetch16 s.pc.toNat))).setPrevPc s.pc).dropDraw) t := by
  obtain ⟨_, _, u, hu, rfl⟩ := step_next h
  have hx := exec_frame hu
  rw [changesOf_beginStep] at hx
  exact
    { regs := fun k hk => (hx.regs k hk).trans (State.beginStep_reg _ k)
      i := fun hi => (hx.i hi).trans (State.beginStep_i _)
      pc := nofun
      sp := fun hsp => (hx.sp hsp).trans (State.beginStep_sp _)
      slots := fun k hk => (hx.slots k hk).trans (congrArg (·[k]?) (State.beginStep_stack _))
      dt := nofun
      st := nofun
      mem := fun a ha => (hx.mem a ha).trans
        (State.readByte_of_mem (State.beginStep_mem _) (State.beginStep_font _) a)
      screen := fun hs j => (hx.screen hs j).trans (congrArg (Screen.read · j) (State.beginStep_screen _))
      decOp := hx.decOp.trans (State.beginStep_decOp _)
      decOperand := hx.decOperand.trans (State.beginStep_decOperand _)
      prevPc := rfl
      romSize := hx.romSize.trans (State.beginStep_romSize _)
      fault := hx.fault.trans (State.beginStep_fault _)
      font := hx.font.trans (State.beginStep_font _)
      keys := hx.keys.trans (State.beginStep_keys _)
      freeze := hx.freeze.trans (State.beginStep_freeze _)
      draws := congrArg List.tail (hx.draws.trans (State.beginStep_draws _))
      drawCount := congrArg (· + 1) (hx.drawCount.trans (State.beginStep_drawCount _)) }

end Sys2Proof.Machine
end

section
/-!
SUPPORT. Steps that go on, steps that fault, and steps in sequence, from the frame and the faults of the execute phase
(spec/40_dispatch_and_cycle.md R110 to R119; spec/60_exceptions.md R262 to R265).
-/

namespace Sys2Proof.Machine

variable {s t : State} {w : Word}

/-! ## The words of the instructions -/

theorem decodeWord_of_unknown (h : decodeKnown w = none) : decodeWord w = .sys 0 := by rw [decodeWord, h]; rfl

theorem decodePair_of_unknown (h : decodeKnown w = none) : decodePair w = (0, 0x000#12) := by rw [decodePair, h]

/-- A word that matches no row of the table is an unknown one. -/
theorem decodeKnown_of_noRow (h : ∀ r ∈ opcodeRows, w &&& r.mask ≠ r.value) : decodeKnown w = none := by
  have hrow : rowOf w = none := by
    rw [rowOf, List.find?_eq_none]
    exact fun r hr => by simpa using h r hr
  have hmap := decoderIsTheOpcodeTable w
  rw [hrow] at hmap
  exact Option.map_eq_none_iff.mp hmap.symm

/-- The destination of an instruction is the field x of its word (R82), so VF is changed by the flag writers or by a
word whose x is F. -/
theorem flag_notMem_changesOf (s : State)
    (hflag : (decodeWord w).index ∉ ([14, 15, 16, 17, 18, 23] : List OpIndex)) (hx : xOf w ≠ 15) :
    (15 : Reg) ∉ (changesOf s (decodeWord w)).regs := by
  cases hknown : decodeKnown w with
  | none =>
    rw [decodeWord_of_unknown hknown]
    exact List.not_mem_nil
  | some i =>
    have henc := encodeWord_of_decodeKnown hknown
    rw [(decodeWord_of_known hknown).1] at hflag ⊢
    cases i
    case addReg | sub | shr | subn | shl | drw => simp [Instr.index] at hflag
    case ldImm | addImm | rnd | ldVxDt | ldVxK | ldReg | or | and | xor =>
      obtain rfl : encodeWord _ = w := by simpa using henc
      simpa [changesOf, encodeWord, eq_comm] using hx
    case ldVxMem x =>
      obtain rfl : encodeWord (.ldVxMem x) = w := by simpa using henc
      rw [encodeWord, xOf_wordXkk] at hx
      exact fun hmem => hx (Fin.last_le_iff.mp ((mem_regsLoaded x 15).mp hmem))
    all_goals exact List.not_mem_nil

/-! ## The parts of a step -/

theorem Frame.beginStep (s : State) (w : Word) :
    Frame { dt := true, st := true } (s.setDecoded (decodePair w)) (s.beginStep w) := by
  rw [State.beginStep_eq]
  exact { Frame.refl { dt := true, st := true } (s.setDecoded (decodePair w)) with dt := nofun, st := nofun }

/-! ## Faults -/

theorem step_ne_refused (s : State) (r : Refusal) : step s ≠ .refused r := by
  intro h
  unfold step at h
  cases hfault : s.fault with
  | some f => simp [hfault] at h
  | none =>
    rcases s.fetch_cases with ⟨_, hfetch⟩ | ⟨_, hfetch⟩ <;> simp only [hfault, hfetch] at h
    · rw [runWord_eq] at h
      cases hx : exec (decodeWord (s.fetch16 s.pc.toNat)) (s.beginStep (s.fetch16 s.pc.toNat)) with
      | refused r' => exact exec_ne_refused _ _ _ hx
      | next u | fault r' => rw [hx] at h; cases h
    · cases h

/-- A step faults in its fetch or in its execute phase (R118). -/
theorem step_eq_fault_iff {r : Fault} (hfault : s.fault = none) :
    step s = .fault r ↔ (4096 ≤ s.pc.toNat + 1 ∧ r = .memOutOfRange (max s.pc.toNat 4096)) ∨
      (s.pc.toNat + 1 < 4096 ∧ faultRaised s (decodeWord (s.fetch16 s.pc.toNat)) = some r) := by
  by_cases hpc : s.pc.toNat + 1 < 4096
  · rw [step_of_fetchable hfault hpc, runWord_eq, ← faultRaised_beginStep s (s.fetch16 s.pc.toNat),
      ← exec_eq_fault_iff]
    cases exec (decodeWord (s.fetch16 s.pc.toNat)) (s.beginStep (s.fetch16 s.pc.toNat)) <;>
      simp [mapNext, hpc, Nat.not_le.mpr hpc]
  · rw [step_of_not_fetchable hfault (by omega)]
    simp [hpc, Nat.not_lt.mp hpc, eq_comm]

/-- `faultRaised`, instruction by instruction (R264). -/
theorem faultRaised_eq_some_iff {i : Instr} {r : Fault} : faultRaised s i = some r ↔
    (∃ x y, ∃ n : Fin 16, i = .drw x y n ∧ 1 ≤ n.val ∧ 4096 ≤ s.i.toNat + n.val - 1 ∧
      r = .memOutOfRange (max s.i.toNat 4096)) ∨
    (∃ x, i = .ldB x ∧ 4096 ≤ s.i.toNat + 2 ∧ r = .memOutOfRange (max s.i.toNat 4096)) ∨
    (∃ x, (i = .ldMemVx x ∨ i = .ldVxMem x) ∧ 4096 ≤ s.i.toNat + x.val ∧
      r = .memOutOfRange (max s.i.toNat 4096)) ∨
    (∃ nnn, i = .call nnn ∧ 16 ≤ (s.sp.toNat + 1) % 256 ∧ r = .stackOverflow s.sp) ∨
    (i = .ret ∧ 16 ≤ s.sp.toNat ∧ r = .stackOutOfRange s.sp) ∨
    (∃ x, (i = .skp x ∨ i = .sknp x) ∧ 16 ≤ (s.reg x).toNat ∧ r = .keyOutOfRange (s.reg x)) := by
  have houtside (count : Nat) : accessFault s.i.toNat count = some r ↔
      1 ≤ count ∧ 4096 ≤ s.i.toNat + count - 1 ∧ r = .memOutOfRange (max s.i.toNat 4096) := by
    rw [accessFault_eq_some]
    exact and_congr_right fun hcount => and_congr_left' (by omega)
  cases i
  case drw | ldB | ldMemVx | ldVxMem => simp [faultRaised, houtside]
  all_goals simp [faultRaised, eq_comm]

/-! ## Steps in sequence -/

theorem State.afterStep_inputs (s : State) : s.afterStep.keys = s.keys ∧ s.afterStep.freeze = s.freeze := by
  cases h : step s with
  | next t =>
    rw [State.afterStep_of_next h]
    exact ⟨(step_frame h).keys, (step_frame h).freeze⟩
  | fault r =>
    rw [State.afterStep_of_fault h]
    exact ⟨rfl, rfl⟩
  | refused r => exact absurd h (step_ne_refused s r)

/-- No step writes the inputs (R119). -/
theorem State.steps_inputs (n : Nat) (s : State) :
    (State.steps n s).keys = s.keys ∧ (State.steps n s).freeze = s.freeze := by
  induction n generalizing s with
  | zero => exact ⟨rfl, rfl⟩
  | succ n ih =>
    cases hfault : s.fault with
    | some r => rw [State.steps_of_fault hfault]; exact ⟨rfl, rfl⟩
    | none =>
      rw [State.steps_succ hfault, (ih s.afterStep).1, (ih s.afterStep).2]
      exact s.afterStep_inputs

theorem State.setInputs_self (s : State) : s.setInputs s.keys s.freeze = s := rfl

theorem State.steps_one {s t : State} (h : step s = .next t) : State.steps 1 s = t := by
  obtain ⟨hfault, _⟩ := step_next h
  rw [State.steps_succ hfault, State.steps_zero, State.afterStep_of_next h]

/-- With a fault pending, the answer of a step is its reason (R110). -/
theorem step_of_fault {r : Fault} (h : s.fault = some r) : step s = .fault r := by
  rw [step, h]

/-! ## The net next PC (R116) -/

/-- A step that goes on ends 2 behind where its execute phase left PC. -/
theorem step_pc {i : Instr} (h : step s = .next t) (hi : decodeWord (s.fetch16 s.pc.toNat) = i) :
    ∃ u, exec i (s.beginStep (s.fetch16 s.pc.toNat)) = .next u ∧ t.pc = u.pc + 2 := by
  obtain ⟨_, _, u, hu, rfl⟩ := step_next h
  exact ⟨u, hi ▸ hu, rfl⟩

theorem State.skipIf_pc (s : State) (c : Bool) : (s.skipIf c).pc = if c then s.pc + 2 else s.pc := by
  rw [State.skipIf_eq]
  rfl

theorem indexedTarget_toNat (nnn : Operand) (b : Byte) : (indexedTarget nnn b).toNat = nnn.toNat + b.toNat := by
  have hn : nnn.toNat < 4096 := nnn.isLt
  have hb : b.toNat < 256 := b.isLt
  rw [indexedTarget, BitVec.toNat_add, zext_toNat, BitVec.toNat_setWidth_of_le (by decide)]
  omega

@[simp] theorem State.beginStep_slot? (s : State) (w : Word) (k : Nat) : (s.beginStep w).slot? k = s.slot? k := by
  simp only [State.slot?, State.beginStep_stack]

@[simp] theorem State.beginStep_key? (s : State) (w : Word) (k : Nat) : (s.beginStep w).key? k = s.key? k := by
  simp only [State.key?, State.beginStep_keys]

/-- A transfer of control ends at its target. -/
theorem step_pc_of_jump {i : Instr} {u : State} {a : Word} (h : step s = .next t)
    (hi : decodeWord (s.fetch16 s.pc.toNat) = i)
    (hx : exec i (s.beginStep (s.fetch16 s.pc.toNat)) = .next (u.jump a)) : t.pc = a := by
  obtain ⟨v, hv, hpc⟩ := step_pc h hi
  cases hx.symm.trans hv
  rw [hpc, State.jump_pc, BitVec.sub_add_cancel]

/-- A skip ends 4 or 2 behind its address. -/
theorem step_pc_of_skip {i : Instr} {c : Bool} (h : step s = .next t) (hi : decodeWord (s.fetch16 s.pc.toNat) = i)
    (hx : exec i (s.beginStep (s.fetch16 s.pc.toNat)) =
      .next ((s.beginStep (s.fetch16 s.pc.toNat)).skipIf c)) :
    t.pc = if c then s.pc + 4 else s.pc + 2 := by
  obtain ⟨u, hu, hpc⟩ := step_pc h hi
  cases hx.symm.trans hu
  rw [hpc, State.skipIf_pc, State.beginStep_pc]
  cases c
  · rfl
  · exact BitVec.add_assoc s.pc 2 2

/-- SKP or SKNP that goes on finds its key. -/
theorem key?_of_exec_next {x : Reg} {u : State} (hu : exec (.skp x) s = .next u ∨ exec (.sknp x) s = .next u) :
    ∃ pressed, s.key? (s.reg x).toNat = some pressed := by
  rcases execKey_cases s (s.reg x) with ⟨pressed, hkey, _⟩ | ⟨hkey, _⟩
  · exact ⟨pressed, hkey⟩
  · rw [exec_skp_of_no_key hkey, exec_sknp_of_no_key hkey] at hu
    rcases hu with hu | hu <;> cases hu

end Sys2Proof.Machine
end

section
/-!
PROOFS. The statements about the step, settled (spec/40_dispatch_and_cycle.md R110 to R119; spec/60_exceptions.md
R262 to R265).
-/

open Sys2Proof Sys2Proof.Machine

/-- Settles O11: a word without a row is unknown (O9), so it runs as SYS 0, and what a step of SYS changes is what
every step changes (`step_frame`). -/
theorem unknownWordsAreNoOps : Obligations.UnknownWordsAreNoOps := by
  refine ⟨fun hi lo => ⟨_, rfl⟩, fun w hrows => ?_⟩
  have hunknown := decodeKnown_of_noRow hrows
  have hsys := decodeWord_of_unknown hunknown
  refine ⟨decodePair_of_unknown hunknown, fun s hw => ?_⟩
  have hstep : step s = .next ((s.beginStep w).endStep s.pc) := step_of_exec hw hsys rfl
  have hframe := step_frame hstep
  rw [State.fetch16_of_fetches hw, hsys, decodePair_of_unknown hunknown] at hframe
  refine ⟨_, hstep, ?_, State.dtDecayed_eq s w, State.stDecayed_eq s w, hframe⟩
  rw [State.endStep_pc, State.beginStep_pc]

/-- Settles O12: the two bytes at PC are those of the fetched word. -/
theorem stepRunsTheDecodedInstruction : Obligations.StepRunsTheDecodedInstruction := by
  intro s i hfault hpc hdecode
  have hi : decodeWord (s.fetch16 s.pc.toNat) = i := (Prod.mk.inj (Except.ok.inj hdecode)).1
  rw [step_of_fetchable hfault hpc, runWord_eq, hi]

/-- Settles O13: what precedes execute is the decay and the record (`Frame.beginStep`), what follows it is written out. -/
theorem stepSurroundsExecute : Obligations.StepSurroundsExecute := by
  refine ⟨fun s w => ⟨State.dtDecayed_eq s w, State.stDecayed_eq s w, ?_, ?_⟩,
    fun t pc0 => ⟨rfl, rfl, rfl, rfl, Frame.setPc _ _⟩⟩
  · rw [State.beginStep_decOp, State.beginStep_decOperand]
  · exact Frame.beginStep s w

/-- Settles O17, instruction by instruction: a transfer ends at its target, a skip 4 or 2 behind its address, and an
instruction that does not change PC in execute 2 behind it. -/
theorem nextPcOfEveryInstruction : Obligations.NextPcOfEveryInstruction := by
  intro s t h w
  refine ⟨fun nnn hi => ?_, fun nnn hi => ?_, fun nnn hi => ?_, fun hi => ?_, fun x kk hi => ?_, fun x kk hi => ?_,
    fun x y hi => ?_, fun x y hi => ?_, fun x hi => ?_, fun x hi => ?_, fun x hi => ?_, fun hi => ?_⟩
  · rw [step_pc_of_jump h hi (exec_jp nnn _), zext_toNat]
  · obtain ⟨u, hu, _⟩ := step_pc h hi
    rcases execCall_cases nnn (s.beginStep w) with ⟨_, hcall⟩ | ⟨_, hcall⟩
    · rw [step_pc_of_jump h hi hcall, zext_toNat]
    · cases hcall.symm.trans hu
  · rw [step_pc_of_jump h hi rfl, indexedTarget_toNat, State.beginStep_reg]
  · obtain ⟨u, hu, hpc⟩ := step_pc h hi
    rcases execRet_cases (s.beginStep w) with ⟨ret, hslot, hret⟩ | ⟨_, hret⟩ <;> cases hret.symm.trans hu
    exact ⟨ret, by simpa using hslot, hpc⟩
  · rw [step_pc_of_skip h hi rfl]
    simp
  · rw [step_pc_of_skip h hi rfl]
    simp
  · rw [step_pc_of_skip h hi rfl]
    simp
  · rw [step_pc_of_skip h hi rfl]
    simp
  · obtain ⟨u, hu, _⟩ := step_pc h hi
    obtain ⟨pressed, hkey⟩ := key?_of_exec_next (.inl hu)
    rw [step_pc_of_skip h hi (exec_skp_of_key hkey)]
    simp only [State.beginStep_key?, State.beginStep_reg] at hkey
    simp [hkey]
  · obtain ⟨u, hu, _⟩ := step_pc h hi
    obtain ⟨pressed, hkey⟩ := key?_of_exec_next (.inr hu)
    rw [step_pc_of_skip h hi (exec_sknp_of_key hkey)]
    simp only [State.beginStep_key?, State.beginStep_reg] at hkey
    cases pressed <;> simp [hkey]
  · obtain ⟨u, hu, hpc⟩ := step_pc h hi
    rcases execLdVxK_cases x (s.beginStep w) with ⟨hnone, hwait⟩ | ⟨slot, hslot, hreport⟩
    · cases hwait.symm.trans hu
      rw [State.beginStep_keys] at hnone
      rw [hpc, if_pos hnone]
      simp [State.repeatInstruction]
    · cases hreport.symm.trans hu
      rw [State.beginStep_keys] at hslot
      rw [hpc, if_neg fun hnone => by simp [hnone] at hslot]
      simp
  · obtain ⟨u, hu, hpc⟩ := step_pc h rfl
    have hkept : (changesOf (s.beginStep w) (decodeWord w)).pc = false := by
      rw [changesOf_pc]
      generalize (decodeWord w).index = k at hi
      revert k
      decide
    rw [hpc, (exec_frame hu).pc hkept, State.beginStep_pc]

/-- Settles O18: a fault is that of the fetch or the one that `faultRaised` names for the decoded instruction. -/
theorem stepFaultsExactlyAsListed : Obligations.StepFaultsExactlyAsListed := by
  refine ⟨step_ne_refused, fun s r hfault => ?_⟩
  rw [step_eq_fault_iff hfault, faultRaised_eq_some_iff]

/-- Settles O19: the state after a fault is the state before with the reason, and with a reason no step runs. -/
theorem faultDiscardsTheStepAndStops : Obligations.FaultDiscardsTheStepAndStops := by
  refine ⟨fun s r _ hstep => ?_, fun s r hfault => step_of_fault hfault, fun s r n keys freeze hfault => ?_,
    fun s => rfl⟩
  · rw [State.afterStep_of_fault hstep]
    exact ⟨rfl, Frame.refl _ _⟩
  · exact State.steps_of_fault (s := s.setInputs keys freeze) hfault n

/-- Settles O20: steps in sequence (`State.steps_add`) that keep the inputs, so giving them again changes nothing. -/
theorem cycleIsItsStepsInSequence : Obligations.CycleIsItsStepsInSequence := by
  have hinputs (s : State) (n : Nat) (keys : Vector Bool 16) (freeze : Bool) :
      (s.cycle n keys freeze).keys = keys ∧ (s.cycle n keys freeze).freeze = freeze :=
    State.steps_inputs n (s.setInputs keys freeze)
  refine ⟨fun s m n keys freeze => ?_, fun s t keys freeze hstep => State.steps_one hstep,
    fun s keys freeze => rfl, hinputs⟩
  have hagain : (s.cycle m keys freeze).setInputs keys freeze = s.cycle m keys freeze := by
    obtain ⟨hkeys, hfreeze⟩ := hinputs s m keys freeze
    exact (congrArg₂ (s.cycle m keys freeze).setInputs hkeys hfreeze).symm.trans (State.setInputs_self _)
  rw [State.cycle, State.cycle.eq_def (s.cycle m keys freeze), hagain]
  exact State.steps_add m n _

/-- Settles O25: the frame of a step (`step_frame`), with the instructions that may change each field by their indices
(`changesOf_i` and the others); the timers by the steps that leave them decayed. -/
theorem onlyTheNamedInstructionsWriteEachState : Obligations.OnlyTheNamedInstructionsWriteEachState := by
  intro s t h k
  have hframe := step_frame h
  have hflag := flag_notMem_changesOf (w := s.fetch16 s.pc.toNat) s
  refine ⟨fun hk => hframe.i ?_, fun hk => hframe.sp ?_, fun hk n => hframe.slots n ?_,
    fun hk => step_next_dt h hk, fun hk => step_next_st h hk, fun hk a => hframe.mem a ?_,
    fun hk j => hframe.screen ?_ j, fun hk x => hframe.regs x ?_,
    fun hk hx => hframe.regs 15 (hflag hk hx), hframe.romSize, hframe.font, hframe.keys, hframe.freeze,
    hframe.prevPc, hframe.fault.trans (step_next h).1⟩
  · rw [changesOf_i, decide_eq_false hk]
  · rw [changesOf_sp, decide_eq_false hk]
  · rw [changesOf_slots, if_neg hk]
    exact List.not_mem_nil
  · rw [changesOf_stored s hk]
    omega
  · rw [changesOf_screen, decide_eq_false hk]
  · rw [changesOf_regs s hk]
    exact List.not_mem_nil

end

section
/-!
SUPPORT. Drawing cell by cell (spec/44_display.md R201 to R204): the pixels of a sprite are distinct cells, so each is
complemented once and collides by what it held before the sprite.
-/

namespace Sys2Proof.Machine

variable {s t : State}

/-! ## The pixels of a sprite are distinct (R201) -/

/-- A sprite is 8 cells wide and less than 32 rows high, so it does not meet itself around the edges. -/
theorem pixelIndex_inj {xs ys : Byte} {r r' c c' : Nat} (hr : r < 32) (hr' : r' < 32) (hc : c < 8) (hc' : c' < 8)
    (h : pixelIndex xs ys r c = pixelIndex xs ys r' c') : r = r' ∧ c = c' := by
  have hcells : (xs.toNat + c + 64 * (ys.toNat + r)) % 2048 = (xs.toNat + c' + 64 * (ys.toNat + r')) % 2048 := h
  omega

theorem nodup_rowPixels (xs ys : Byte) {r : Nat} (hr : r < 32) (b : Byte) : (rowPixels xs ys r b).Nodup := by
  refine List.Nodup.map_on (fun c hc c' hc' h => ?_) (List.nodup_range.filter _)
  simp only [List.mem_filter, List.mem_range] at hc hc'
  exact (pixelIndex_inj hr hr hc.1 hc'.1 h).2

theorem nodup_spritePixels (xs ys : Byte) {r : Nat} {bs : List Byte} (hr : r + bs.length ≤ 32) :
    (spritePixels xs ys r bs).Nodup := by
  induction bs generalizing r with
  | nil => exact List.nodup_nil
  | cons b rest ih =>
    rw [List.length_cons] at hr
    refine List.nodup_append.mpr ⟨nodup_rowPixels xs ys (by omega) b, ih (by omega), fun j hj j' hj' => ?_⟩
    rintro rfl
    obtain ⟨c, hc, _, hcell⟩ := mem_rowPixels.mp hj
    obtain ⟨r', hr', c', hc', _, hcell'⟩ := mem_spritePixels.mp hj'
    have hrow := (pixelIndex_inj (by omega) (by omega) hc hc' (hcell.trans hcell'.symm)).1
    omega

/-! ## Drawing distinct pixels (R203, R204) -/

theorem read_foldl_drawPixel {js : List Nat} (hjs : js.Nodup) (acc : List Host.Cell × Bool) (j : Nat) :
    Screen.read (js.foldl drawPixel acc).1 j =
      if j ∈ js then ~~~Screen.read acc.1 j else Screen.read acc.1 j := by
  induction js generalizing acc with
  | nil => rfl
  | cons k rest ih =>
    obtain ⟨hk, hrest⟩ := List.nodup_cons.mp hjs
    rw [List.foldl_cons, ih hrest]
    simp only [drawPixel, Screen.read_write, List.mem_cons]
    by_cases hj : j = k
    · simp [hj, hk]
    · simp [hj]

theorem collides_foldl_drawPixel {js : List Nat} (hjs : js.Nodup) (acc : List Host.Cell × Bool) :
    (js.foldl drawPixel acc).2 = true ↔ acc.2 = true ∨ ∃ j ∈ js, Screen.read acc.1 j ≠ 0x00#8 := by
  induction js generalizing acc with
  | nil => simp
  | cons k rest ih =>
    obtain ⟨hk, hrest⟩ := List.nodup_cons.mp hjs
    have hkept : ∀ j ∈ rest, Screen.read (drawPixel acc k).1 j = Screen.read acc.1 j := fun j hj => by
      rw [drawPixel, Screen.read_write, if_neg (ne_of_mem_of_not_mem hj hk)]
    have hlater : (∃ j ∈ rest, Screen.read (drawPixel acc k).1 j ≠ 0x00#8) ↔
        ∃ j ∈ rest, Screen.read acc.1 j ≠ 0x00#8 :=
      exists_congr fun j => and_congr_right fun hj => by rw [hkept j hj]
    rw [List.foldl_cons, ih hrest, hlater]
    simp [drawPixel, or_assoc]

/-! ## The sprite of a DRW -/

theorem length_readBytes (s : State) (a n : Nat) : (s.readBytes a n).length = n := by
  induction n generalizing a with
  | zero => rfl
  | succ n ih => rw [State.readBytes, List.length_cons, ih]

theorem getElem_readBytes (s : State) (a n k : Nat) (hk : k < (s.readBytes a n).length) :
    (s.readBytes a n)[k] = s.readByte (a + k) := by
  induction n generalizing a k with
  | zero => exact absurd hk (Nat.not_lt_zero k)
  | succ n ih =>
    cases k with
    | zero => rfl
    | succ k =>
      have htail := ih (a + 1) k (by simpa [State.readBytes] using hk)
      rw [show a + 1 + k = a + (k + 1) by omega] at htail
      exact htail

theorem readBytes_congr (h : ∀ a, t.readByte a = s.readByte a) (a n : Nat) : t.readBytes a n = s.readBytes a n := by
  induction n generalizing a with
  | zero => rfl
  | succ n ih => rw [State.readBytes, State.readBytes, h, ih]

/-- The cells that DRW Vx, Vy, n complements, in the order of drawing. -/
def State.sprite (s : State) (x y : Reg) (n : Fin 16) : List Nat :=
  spritePixels (s.reg x) (s.reg y) 0 (s.readBytes s.i.toNat n.val)

theorem State.nodup_sprite (s : State) (x y : Reg) (n : Fin 16) : (s.sprite x y n).Nodup :=
  nodup_spritePixels _ _ (by rw [length_readBytes]; omega)

/-- The drawn cells (R201, R202). -/
theorem State.mem_sprite {x y : Reg} {n : Fin 16} {j : Nat} : j ∈ s.sprite x y n ↔
    ∃ r, r < n.val ∧ ∃ c, c < 8 ∧ (s.readByte (s.i.toNat + r)).getLsbD (7 - c) = true ∧
      ((s.reg x).toNat + c + 64 * ((s.reg y).toNat + r)) % 2048 = j := by
  simp only [State.sprite, mem_spritePixels, getElem_readBytes, length_readBytes, spriteBit, pixelIndex,
    Nat.zero_add, Config.screenW, Config.screenCells, exists_prop]

/-- The state after a DRW that goes on (R203). -/
def State.drawnSprite (s : State) (x y : Reg) (n : Fin 16) : State :=
  let drawn := drawPixels s.screen (s.sprite x y n)
  (s.setScreen drawn.1).setFlag (collisionFlag drawn.2)

theorem guardAccess_of_inside {first count : Nat} {next : State} (h : count = 0 ∨ first + count ≤ 4096) :
    guardAccess first count next = .next next := by
  rw [guardAccess, (accessFault_eq_none _ _).mpr h]

theorem exec_drw (x y : Reg) (n : Fin 16) (s : State) :
    exec (.drw x y n) s = guardAccess s.i.toNat n.val (s.drawnSprite x y n) := rfl

theorem exec_drw_of_inside {x y : Reg} {n : Fin 16} (h : n.val = 0 ∨ s.i.toNat + n.val ≤ 4096) :
    exec (.drw x y n) s = .next (s.drawnSprite x y n) := by
  rw [exec_drw, guardAccess_of_inside h]

theorem State.cell_drawnSprite (s : State) (x y : Reg) (n : Fin 16) (j : Nat) :
    (s.drawnSprite x y n).cell j = if j ∈ s.sprite x y n then ~~~s.cell j else s.cell j :=
  read_foldl_drawPixel (s.nodup_sprite x y n) (s.screen, false) j

theorem State.flag_drawnSprite (s : State) (x y : Reg) (n : Fin 16) :
    (s.drawnSprite x y n).reg 15 = boolByte (drawPixels s.screen (s.sprite x y n)).2 :=
  (State.reg_setFlag _ _ _).trans (if_pos rfl)

/-- A sprite collides when one of its cells was not 0 (R203, D17). -/
theorem State.collides_drawnSprite (s : State) (x y : Reg) (n : Fin 16) :
    (drawPixels s.screen (s.sprite x y n)).2 = true ↔ ∃ j ∈ s.sprite x y n, s.cell j ≠ 0x00#8 :=
  (collides_foldl_drawPixel (s.nodup_sprite x y n) (s.screen, false)).trans (by simp [State.cell])

/-- What a DRW that goes on leaves: the sprite it draws is that of the state before. -/
theorem exec_drw_next {x y : Reg} {n : Fin 16} (h : exec (.drw x y n) s = .next t) :
    t = s.drawnSprite x y n ∧ (n.val = 0 ∨ s.i.toNat + n.val ≤ 4096) :=
  guardAccess_next h

/-- A sprite that does not take its place from VF is drawn at the same cells a second time. -/
theorem State.sprite_drawnSprite {x y : Reg} (hx : x ≠ 15) (hy : y ≠ 15) (n : Fin 16) :
    (s.drawnSprite x y n).sprite x y n = s.sprite x y n := by
  have hframe : Frame { regs := [15], screen := true } s (s.drawnSprite x y n) := Frame.setScreen_setFlag s _ _
  have hmem (a : Nat) : (s.drawnSprite x y n).readByte a = s.readByte a := hframe.mem a (by simp)
  rw [State.sprite, hframe.regs x (by simpa using hx), hframe.regs y (by simpa using hy), hframe.i rfl,
    readBytes_congr hmem]
  rfl

end Sys2Proof.Machine
end

section
/-!
PROOFS. The statements about DRW, settled (spec/44_display.md R201 to R204).
-/

open Sys2Proof Sys2Proof.Machine

/-- Settles O42: the drawn cells are the members of the sprite (`State.mem_sprite`), complemented once each. -/
theorem drwComplementsTheCellsOfTheSprite : Obligations.DrwComplementsTheCellsOfTheSprite := by
  intro x y n s drawn
  have hdrawn (j : Nat) : drawn j ↔ j ∈ s.sprite x y n := State.mem_sprite.symm
  refine ⟨fun hin => ⟨_, exec_drw_of_inside hin, fun j hj => ?_, fun j hj => ?_, fun hlit => ?_, fun hdark => ?_,
    Frame.setScreen_setFlag s _ _⟩, fun hn hout => ?_⟩
  · rw [State.cell_drawnSprite, if_pos ((hdrawn j).mp hj)]
  · rw [State.cell_drawnSprite, if_neg (mt (hdrawn j).mpr hj)]
  · obtain ⟨j, hj, hcell⟩ := hlit
    rw [State.flag_drawnSprite, (s.collides_drawnSprite x y n).mpr ⟨j, (hdrawn j).mp hj, hcell⟩]
    rfl
  · have hnone : ¬∃ j ∈ s.sprite x y n, s.cell j ≠ 0x00#8 := by
      rintro ⟨j, hj, hcell⟩
      exact hcell (hdark j ((hdrawn j).mpr hj))
    rw [State.flag_drawnSprite, Bool.eq_false_iff.mpr (mt (s.collides_drawnSprite x y n).mp hnone)]
    rfl
  · exact exec_eq_fault_iff.mpr (accessFault_of_outside hn hout)

/-- Settles O43: the second DRW draws the same sprite, and a complement twice is no change. -/
theorem drawingTwiceRestoresTheScreen : Obligations.DrawingTwiceRestoresTheScreen := by
  intro x y n s t hx hy h
  obtain ⟨rfl, hin⟩ := exec_drw_next h
  refine ⟨_, exec_drw_of_inside hin, fun j => ?_⟩
  rw [State.cell_drawnSprite, State.sprite_drawnSprite hx hy, State.cell_drawnSprite]
  split_ifs
  · exact BitVec.not_not
  · rfl

end

section
/-!
SUPPORT. The invariants of the execute phase: canonical form, a binary screen, SP in range (spec/10_state.md R25, R29;
log 23), and what canonical form is for.
-/

namespace Sys2Proof.Machine

variable {s t : State} {i : Instr}

theorem State.wf_iff (s : State) : s.wf = true ↔ Memory.wf s.font s.mem = true ∧ Screen.wf s.screen = true := by
  rw [State.wf, Bool.and_eq_true]

theorem State.wf_writeBytes {a : Nat} {bs : List Byte} (hwf : s.wf = true) (hin : a + bs.length ≤ 4096) :
    (s.writeBytes a bs).wf = true := by
  obtain ⟨hmem, hscreen⟩ := s.wf_iff.mp hwf
  obtain ⟨m, hm⟩ := s.writeBytes_eq_setMem a bs
  refine (State.wf_iff _).mpr ⟨Memory.wf_writeBytes s hmem hin, ?_⟩
  rw [hm]
  exact hscreen

theorem State.wf_skipIf (hwf : s.wf = true) (c : Bool) : (s.skipIf c).wf = true := by
  rw [State.skipIf_eq]
  exact hwf

theorem State.wf_drawnSprite (hwf : s.wf = true) (x y : Reg) (n : Fin 16) : (s.drawnSprite x y n).wf = true := by
  obtain ⟨hmem, hscreen⟩ := s.wf_iff.mp hwf
  have hcells : ∀ j ∈ s.sprite x y n, j < 2048 := fun j hj => by
    obtain ⟨_, _, _, _, _, rfl⟩ := mem_spritePixels.mp hj
    exact pixelIndex_lt _ _ _ _
  exact (State.wf_iff _).mpr ⟨hmem, Screen.wf_drawPixels hscreen hcells⟩

/-- The execute phase keeps memory and screen in canonical form; only LD B, LD [I], CLS and DRW write them
(log 23). -/
theorem exec_wf (hwf : s.wf = true) (h : exec i s = .next t) : t.wf = true := by
  cases i
  case cls =>
    cases h
    exact (State.wf_iff _).mpr ⟨(s.wf_iff.mp hwf).1, Cells.wf_nil _ _⟩
  case drw x y n =>
    obtain ⟨rfl, _⟩ := exec_drw_next h
    exact State.wf_drawnSprite hwf x y n
  case ldB x =>
    obtain ⟨rfl, hin⟩ := guardAccess_next h
    exact State.wf_writeBytes hwf (hin.resolve_left (by decide))
  case ldMemVx x =>
    obtain ⟨rfl, hin⟩ := guardAccess_next h
    exact State.wf_writeBytes hwf (length_regsThrough s x ▸ hin.resolve_left x.val.succ_ne_zero)
  case ldVxMem x =>
    obtain ⟨rfl, _⟩ := guardAccess_next h
    exact hwf
  case ret =>
    rcases execRet_cases s with ⟨_, _, hret⟩ | ⟨_, hret⟩ <;> cases hret.symm.trans h
    exact hwf
  case call nnn =>
    rcases execCall_cases nnn s with ⟨_, hcall⟩ | ⟨_, hcall⟩ <;> cases hcall.symm.trans h
    exact hwf
  case ldVxK x =>
    rcases execLdVxK_cases x s with ⟨_, hkey⟩ | ⟨_, _, hkey⟩ <;> cases hkey.symm.trans h <;> exact hwf
  case skp x =>
    obtain ⟨_, hkey⟩ := key?_of_exec_next (.inl h)
    cases (exec_skp_of_key hkey).symm.trans h
    exact State.wf_skipIf hwf _
  case sknp x =>
    obtain ⟨_, hkey⟩ := key?_of_exec_next (.inr h)
    cases (exec_sknp_of_key hkey).symm.trans h
    exact State.wf_skipIf hwf _
  case seImm | sneImm | seReg | sneReg => cases h; exact State.wf_skipIf hwf _
  all_goals cases h; exact hwf

/-- The execute phase keeps the screen binary: CLS writes 0, and DRW complements (R29). -/
theorem exec_screenIsBinary (hbinary : s.screenIsBinary) (h : exec i s = .next t) : t.screenIsBinary := by
  intro j
  cases i
  case cls =>
    cases h
    exact .inl rfl
  case drw x y n =>
    obtain ⟨rfl, _⟩ := exec_drw_next h
    rw [State.cell_drawnSprite]
    rcases hbinary j with hj | hj <;> rw [hj] <;> split_ifs <;> decide
  all_goals
    rw [(exec_frame h).screen rfl]
    exact hbinary j

/-- SP after a RET: one less, but not below 0 (R142). -/
theorem spPopped_toNat (b : Byte) : (if b = 0x00#8 then b else b - 1).toNat = b.toNat - 1 := by
  split_ifs with h
  · rw [h]; rfl
  · have hpos : b.toNat ≠ 0 := fun hz => h (BitVec.eq_of_toNat_eq hz)
    exact BitVec.toNat_sub_of_le (x := b) (y := 1) (Nat.one_le_iff_ne_zero.mpr hpos)

/-- The execute phase keeps SP at a slot and leaves slot 0: CALL writes the slot at its new SP (R25, R26). -/
theorem exec_spInRange (hsp : s.spInRange) (h : exec i s = .next t) : t.spInRange ∧ t.slot? 0 = s.slot? 0 := by
  unfold State.spInRange at hsp ⊢
  cases i
  case ret =>
    rcases execRet_cases s with ⟨_, _, hret⟩ | ⟨_, hret⟩ <;> cases hret.symm.trans h
    refine ⟨?_, rfl⟩
    rw [State.setSp_sp, spPopped_toNat]
    omega
  case call nnn =>
    rcases execCall_cases nnn s with ⟨hlt, hcall⟩ | ⟨_, hcall⟩ <;> cases hcall.symm.trans h
    refine ⟨hlt, State.slot?_setSlot_of_ne (s.setSp (s.sp + 1)) s.pc ?_⟩
    rw [sp_succ_toNat]
    omega
  all_goals
    have hframe := exec_frame h
    exact ⟨(hframe.sp rfl).symm ▸ hsp, hframe.slots 0 List.not_mem_nil⟩

/-! ## Canonical form is unique (log 23) -/

variable {f : Nat → Byte} {bound : Nat}

theorem Cells.rising_cons {lo k : Nat} {v : Byte} {rest : List Host.Cell} :
    Cells.rising bound lo ((k, v) :: rest) = true ↔ lo ≤ k ∧ k < bound ∧ Cells.rising bound (k + 1) rest = true := by
  simp only [Cells.rising, Bool.and_eq_true, decide_eq_true_eq, and_assoc]

theorem Cells.informative_cons {k : Nat} {v : Byte} {rest : List Host.Cell} :
    Cells.informative f ((k, v) :: rest) = true ↔ v ≠ f k ∧ Cells.informative f rest = true := by
  simp [Cells.informative]

/-- A cell below every listed one is unlisted. -/
theorem Cells.read_of_lt {lo a : Nat} {c : List Host.Cell} (hc : Cells.rising bound lo c = true) (ha : a < lo) :
    Cells.read f c a = f a := by
  induction c generalizing lo with
  | nil => rfl
  | cons p rest ih =>
    obtain ⟨k, v⟩ := p
    obtain ⟨hlo, _, hrest⟩ := Cells.rising_cons.mp hc
    rw [Cells.read, if_neg (by omega), ih hrest (by omega)]

theorem Cells.read_cons_same (k : Nat) (v : Byte) (rest : List Host.Cell) : Cells.read f ((k, v) :: rest) k = v :=
  if_pos rfl

theorem Cells.read_cons_of_lt {k a : Nat} (v : Byte) (rest : List Host.Cell) (h : k < a) :
    Cells.read f ((k, v) :: rest) a = Cells.read f rest a :=
  if_neg (by omega)

/-- Canonical lists that read alike from `lo` on are equal: a cell that only one of them lists reads there as no
unlisted cell does. -/
theorem Cells.eq_of_read_eq {lo : Nat} {c c' : List Host.Cell} (hc : Cells.rising bound lo c = true)
    (hc' : Cells.rising bound lo c' = true) (hi : Cells.informative f c = true)
    (hi' : Cells.informative f c' = true)
    (h : ∀ a, lo ≤ a → a < bound → Cells.read f c a = Cells.read f c' a) : c = c' := by
  induction c generalizing lo c' with
  | nil =>
    cases c' with
    | nil => rfl
    | cons p' rest' =>
      obtain ⟨k', v'⟩ := p'
      obtain ⟨hlo', hb', _⟩ := Cells.rising_cons.mp hc'
      have hread := h k' hlo' hb'
      rw [Cells.read_cons_same] at hread
      exact absurd hread.symm (Cells.informative_cons.mp hi').1
  | cons p rest ih =>
    obtain ⟨k, v⟩ := p
    obtain ⟨hlo, hb, hrest⟩ := Cells.rising_cons.mp hc
    obtain ⟨hv, htail⟩ := Cells.informative_cons.mp hi
    have hread := h k hlo hb
    rw [Cells.read_cons_same] at hread
    cases c' with
    | nil => exact absurd hread hv
    | cons p' rest' =>
      obtain ⟨k', v'⟩ := p'
      obtain ⟨hlo', hb', hrest'⟩ := Cells.rising_cons.mp hc'
      obtain ⟨hv', htail'⟩ := Cells.informative_cons.mp hi'
      have hread' := h k' hlo' hb'
      rw [Cells.read_cons_same] at hread'
      rcases Nat.lt_trichotomy k k' with hlt | rfl | hlt
      · rw [Cells.read_of_lt (Cells.rising_cons.mpr ⟨hlt, hb', hrest'⟩) (Nat.lt_succ_self k)] at hread
        exact absurd hread hv
      · rw [Cells.read_cons_same] at hread
        have hsame : rest = rest' := ih hrest hrest' htail htail' fun a hlo hb => by
          have ha := h a (by omega) hb
          rwa [Cells.read_cons_of_lt _ _ (by omega), Cells.read_cons_of_lt _ _ (by omega)] at ha
        rw [hread, hsame]
      · rw [Cells.read_of_lt (Cells.rising_cons.mpr ⟨hlt, hb, hrest⟩) (Nat.lt_succ_self k')] at hread'
        exact absurd hread'.symm hv'

end Sys2Proof.Machine
end

section
/-!
PROOFS. The statements about invariants, settled (spec/10_state.md R25, R26, R29; log 23).
-/

open Sys2Proof Sys2Proof.Machine

/-- Settles O21: execute keeps the canonical form (`exec_wf`), and the rest of a step writes neither memory nor
screen. -/
theorem stepKeepsTheCanonicalForm : Obligations.StepKeepsTheCanonicalForm := by
  intro s t hwf h
  obtain ⟨_, _, u, hu, rfl⟩ := step_next h
  have hbegin : (s.beginStep (s.fetch16 s.pc.toNat)).wf = true := by
    rw [State.wf, State.beginStep_font, State.beginStep_mem, State.beginStep_screen]
    exact hwf
  exact exec_wf (t := u) hbegin hu

/-- Settles O22: execute keeps the screen binary, and the rest of a step does not write it. -/
theorem stepKeepsTheScreenBinary : Obligations.StepKeepsTheScreenBinary := by
  intro s t hbinary h
  obtain ⟨_, _, u, hu, rfl⟩ := step_next h
  have hbegin : (s.beginStep (s.fetch16 s.pc.toNat)).screenIsBinary := fun j => by
    rw [State.cell, State.beginStep_screen]
    exact hbinary j
  exact exec_screenIsBinary (t := u) hbegin hu

/-- Settles O23: execute keeps SP in range and slot 0 (`exec_spInRange`), and the rest of a step writes neither. -/
theorem stepKeepsTheStackPointerInRange : Obligations.StepKeepsTheStackPointerInRange := by
  intro s t hsp h
  obtain ⟨_, _, u, hu, rfl⟩ := step_next h
  have hbegin : (s.beginStep (s.fetch16 s.pc.toNat)).spInRange := by
    rw [State.spInRange, State.beginStep_sp]
    exact hsp
  obtain ⟨hrange, hslot⟩ := exec_spInRange hbegin hu
  exact ⟨hrange, hslot.trans (State.beginStep_slot? _ _ _)⟩

/-- Settles O24: canonical lists that read alike are equal, cell by cell from the first (`Cells.eq_of_read_eq`). -/
theorem canonicalFormIsUnique : Obligations.CanonicalFormIsUnique := by
  have hunique {f : Nat → Byte} {bound : Nat} {c c' : List Host.Cell} (hc : Cells.wf f bound c = true)
      (hc' : Cells.wf f bound c' = true) (h : ∀ a, a < bound → Cells.read f c a = Cells.read f c' a) : c = c' := by
    rw [Cells.wf, Bool.and_eq_true] at hc hc'
    exact Cells.eq_of_read_eq hc.1 hc'.1 hc.2 hc'.2 fun a _ => h a
  exact ⟨fun font m m' => hunique, fun c c' => hunique⟩

/-- Settles O2: at reset nothing is listed, every cell is 0, and SP is 0. -/
theorem resetMeetsTheInvariants : Obligations.ResetMeetsTheInvariants :=
  ⟨rfl, fun _ => .inl rfl, Nat.zero_lt_succ 15⟩

end

section
/-!
SUPPORT. CALL and RET together (spec/41_control_flow.md R142, R144).
-/

namespace Sys2Proof.Machine

variable {s t : State}

/-- The state after a CALL that goes on (R144). -/
def State.called (s : State) (nnn : Operand) : State :=
  ((s.setSp (s.sp + 1)).setSlot (s.sp + 1).toNat s.pc).jump (zext nnn)

theorem exec_call_of_lt (nnn : Operand) (hsp : (s.sp.toNat + 1) % 256 < 16) :
    exec (.call nnn) s = .next (s.called nnn) := by
  rw [← sp_succ_toNat] at hsp
  rcases execCall_cases nnn s with ⟨_, hcall⟩ | ⟨hout, _⟩
  · exact hcall
  · omega

theorem State.sp_called (s : State) (nnn : Operand) : (s.called nnn).sp.toNat = (s.sp.toNat + 1) % 256 :=
  sp_succ_toNat s

/-- CALL leaves SP at a slot that holds its own address. -/
theorem State.slot?_called (nnn : Operand) (hsp : (s.sp.toNat + 1) % 256 < 16) :
    (s.called nnn).slot? (s.called nnn).sp.toNat = some s.pc :=
  State.slot?_setSlot_same (s.setSp (s.sp + 1)) s.pc (sp_succ_toNat s ▸ hsp)

end Sys2Proof.Machine
end

section
/-!
PROOFS. The statements about control flow and the register skips, settled (spec/41_control_flow.md R140 to R145;
spec/42_conditional_skip.md R160 to R164).
-/

open Sys2Proof Sys2Proof.Machine

/-- Settles O26: SYS answers the state it was given. -/
theorem sysHasNoEffect : Obligations.SysHasNoEffect :=
  fun _ s => ⟨s, rfl, Frame.refl _ s⟩

/-- Settles O28: the state after CALL (`State.called`), and the fault that `faultRaised` names. -/
theorem callPushesItsOwnAddress : Obligations.CallPushesItsOwnAddress := by
  refine fun nnn s => ⟨fun hsp => ?_, fun hsp => exec_eq_fault_iff.mpr (if_pos hsp)⟩
  have hcall := exec_call_of_lt nnn hsp
  refine ⟨_, hcall, s.sp_called nnn, State.slot?_called nnn hsp, ?_, exec_frame hcall⟩
  rw [State.called, State.jump_pc_toNat, zext_toNat]

/-- Settles O29: RET at a slot (`exec_ret_of_slot`), and the fault that `faultRaised` names. -/
theorem retPopsTheStack : Obligations.RetPopsTheStack := by
  refine fun s => ⟨fun ret hslot => ?_, fun hsp => ?_, fun hsp => exec_eq_fault_iff.mpr (if_pos hsp)⟩
  · have hret := exec_ret_of_slot hslot
    exact ⟨_, hret, rfl, spPopped_toNat s.sp, exec_frame hret⟩
  · exact ⟨_, exec_ret_of_slot (s.slot?_of_lt hsp)⟩

/-- Settles O31: RET pops the slot that CALL wrote, and takes SP down by the one that CALL took it up. -/
theorem retReturnsBehindItsCall : Obligations.RetReturnsBehindItsCall := by
  intro nnn s t u hsp hcall husp hustack
  cases (exec_call_of_lt nnn (by omega)).symm.trans hcall
  have hslot : u.slot? u.sp.toNat = some s.pc := by
    rw [State.slot?, hustack, husp]
    exact State.slot?_called nnn (by omega)
  refine ⟨_, exec_ret_of_slot hslot, BitVec.eq_of_toNat_eq ?_, fun pc0 => rfl⟩
  rw [State.setSp_sp, spPopped_toNat, husp, State.sp_called]
  omega

/-- Settles O32: a transfer of control to the indexed target. -/
theorem jpV0AddsV0 : Obligations.JpV0AddsV0 := by
  refine fun nnn s => ⟨_, rfl, ?_, Frame.setPc s _⟩
  rw [State.jump_pc_toNat, indexedTarget_toNat]

/-- Settles O33: each is a skip by the test of its operands (`State.skipIf_pc`). -/
theorem skipsAdvanceByTwoMore : Obligations.SkipsAdvanceByTwoMore := by
  refine fun x y kk s => ⟨⟨_, rfl, ?_, Frame.skipIf s _⟩, ⟨_, rfl, ?_, Frame.skipIf s _⟩,
    ⟨_, rfl, ?_, Frame.skipIf s _⟩, ⟨_, rfl, ?_, Frame.skipIf s _⟩⟩
  all_goals simp [State.skipIf_pc, BitVec.toNat_inj]

end

section
/-!
SUPPORT. A register after the write of a result and a flag, and the values of the flags (spec/10_state.md R22;
spec/43_arithmetic_logic.md R177 to R181).
-/

namespace Sys2Proof.Machine

variable (s : State)

theorem State.reg_setReg_same (x : Reg) (b : Byte) : (s.setReg x b).reg x = b := by
  rw [State.reg_setReg, if_pos rfl]

/-- VF holds the flag, whatever the destination (D12). -/
theorem State.flag_setResultAndFlag (x : Reg) (result flag : Byte) :
    (s.setResultAndFlag x result flag).reg 15 = flag :=
  (State.reg_setResultAndFlag s x 15 result flag).trans (if_pos rfl)

theorem State.result_setResultAndFlag {x : Reg} (hx : x ≠ 15) (result flag : Byte) :
    (s.setResultAndFlag x result flag).reg x = result :=
  (State.reg_setResultAndFlag s x x result flag).trans ((if_neg hx).trans (if_pos rfl))

theorem boolByte_toNat (c : Bool) : (boolByte c).toNat = if c then 1 else 0 := by
  cases c <;> rfl

theorem carryFlag_toNat (a b : Byte) : (carryFlag a b).toNat = if 255 < a.toNat + b.toNat then 1 else 0 := by
  simp [carryFlag, boolByte_toNat]

theorem noBorrowFlag_toNat (a b : Byte) : (noBorrowFlag a b).toNat = if b.toNat < a.toNat then 1 else 0 := by
  simp [noBorrowFlag, boolByte_toNat]

theorem shrFlag_toNat (a : Byte) : (shrFlag a).toNat = a.toNat % 2 :=
  (BitVec.toNat_and a 1#8).trans (Nat.and_one_is_mod a.toNat)

theorem shlFlag_toNat (a : Byte) : (shlFlag a).toNat = a.toNat / 128 := by
  have ha : a.toNat < 256 := a.isLt
  have hbit : a.getLsbD 7 = decide (a.toNat / 128 % 2 = 1) := Nat.testBit_eq_decide_div_mod_eq
  rw [shlFlag, boolByte_toNat, hbit]
  split_ifs with h
  all_goals simp only [decide_eq_true_eq] at h; omega

/-- A difference modulo 256. -/
theorem byte_sub_toNat (a b : Byte) : (a - b).toNat = (a.toNat + 256 - b.toNat) % 256 := by
  have ha : a.toNat < 256 := a.isLt
  have hb : b.toNat < 256 := b.isLt
  rw [BitVec.toNat_sub]
  omega

end Sys2Proof.Machine
end

section
/-!
PROOFS. The statements about arithmetic, logic and random, settled (spec/43_arithmetic_logic.md R170 to R183).
-/

open Sys2Proof Sys2Proof.Machine

/-- Settles O35: one register write of the sum. -/
theorem addImmediateWrapsWithoutFlag : Obligations.AddImmediateWrapsWithoutFlag := by
  refine fun x kk s => ⟨_, rfl, ?_, Frame.setReg s x _⟩
  rw [State.reg_setReg_same]
  exact BitVec.toNat_add _ _

/-- Settles O36: one register write of the copy, or, and, exclusive or. -/
theorem copyAndLogicWriteOnlyVx : Obligations.CopyAndLogicWriteOnlyVx := by
  refine fun x y s => ⟨⟨_, rfl, s.reg_setReg_same x _, Frame.setReg s x _⟩,
    ⟨_, rfl, fun b => ?_, Frame.setReg s x _⟩, ⟨_, rfl, fun b => ?_, Frame.setReg s x _⟩,
    ⟨_, rfl, fun b => ?_, Frame.setReg s x _⟩⟩ <;> rw [State.reg_setReg_same]
  · exact BitVec.getLsbD_or
  · exact BitVec.getLsbD_and
  · exact BitVec.getLsbD_xor

/-- Settles O37: the result and the flag of `State.setResultAndFlag`. -/
theorem addRegisterSetsTheCarry : Obligations.AddRegisterSetsTheCarry := by
  refine fun x y s => ⟨_, rfl, fun hx => ?_, ?_, Frame.setResultAndFlag s x _ _⟩
  · rw [State.result_setResultAndFlag s hx]
    exact BitVec.toNat_add _ _
  · rw [State.flag_setResultAndFlag, carryFlag_toNat]

/-- Settles O38: the result and the flag of `State.setResultAndFlag`, SUBN with its operands exchanged. -/
theorem subtractionsSetTheStrictFlag : Obligations.SubtractionsSetTheStrictFlag := by
  refine fun x y s => ⟨⟨_, rfl, fun hx => ?_, ?_, Frame.setResultAndFlag s x _ _⟩,
    ⟨_, rfl, fun hx => ?_, ?_, Frame.setResultAndFlag s x _ _⟩⟩
  · rw [State.result_setResultAndFlag s hx, byte_sub_toNat]
  · rw [State.flag_setResultAndFlag, noBorrowFlag_toNat]
  · rw [State.result_setResultAndFlag s hx, byte_sub_toNat]
  · rw [State.flag_setResultAndFlag, noBorrowFlag_toNat]

/-- Settles O39: the result and the flag of `State.setResultAndFlag`; the y field stands in neither. -/
theorem shiftsSetTheBitShiftedOut : Obligations.ShiftsSetTheBitShiftedOut := by
  refine fun x y s => ⟨⟨_, rfl, fun hx => ?_, ?_, Frame.setResultAndFlag s x _ _⟩,
    ⟨_, rfl, fun hx => ?_, ?_, Frame.setResultAndFlag s x _ _⟩, fun y' => ⟨rfl, rfl⟩⟩
  · rw [State.result_setResultAndFlag s hx]
    exact BitVec.toNat_ushiftRight _ _
  · rw [State.flag_setResultAndFlag, shrFlag_toNat]
  · rw [State.result_setResultAndFlag s hx, BitVec.toNat_shiftLeft, Nat.shiftLeft_eq]
  · rw [State.flag_setResultAndFlag, shlFlag_toNat]

/-- Settles O40: one register write of the masked draw; a draw fixed for the step is the one it uses. -/
theorem rndMasksTheDrawnByte : Obligations.RndMasksTheDrawnByte := by
  refine ⟨fun x kk s => ⟨_, rfl, fun b => ?_, Frame.setReg s x _⟩, fun x kk r s => ⟨⟨0, r, 0⟩, _, rfl, ?_⟩⟩
  · rw [State.reg_setReg_same]
    exact BitVec.getLsbD_and
  · exact State.reg_setReg_same _ x _

end

section
/-!
SUPPORT. The keys: the value of a slot, and which instructions do not read them (spec/10_state.md R30;
spec/45_keys_timers.md R220 to R224).
-/

namespace Sys2Proof.Machine

variable {s : State}

theorem State.key?_of_eq {n : Nat} {k : Fin 16} (h : n = k.val) : s.key? n = some s.keys[k] := by
  subst h
  exact Vector.getElem?_eq_getElem k.isLt

theorem toList_keyMap_getElem? (slot : Fin 16) : keyMap.toList[slot.val]? = some keyMap[slot] := by
  revert slot
  decide

/-- LD Vx, K with a drawn slot that is pressed reports it (D18). -/
theorem exec_ldVxK_of_drawn (x : Reg) {slot : Fin 16} (hdraw : s.draw.kslot = slot) (hslot : s.keys[slot] = true) :
    exec (.ldVxK x) s = .next (s.setReg x keyMap[slot]) := by
  rw [exec, execLdVxK, hdraw, chosenSlot_drawn hslot]

/-- Only SKP, SKNP and LD Vx, K depend on the keys (R30). -/
theorem exec_setKeys (s : State) {i : Instr} (hi : i.index ∉ ([24, 25, 27] : List OpIndex)) (keys : Vector Bool 16) :
    exec i (s.setInputs keys s.freeze) = mapNext (·.setInputs keys s.freeze) (exec i s) := by
  cases i
  case skp | sknp | ldVxK => simp [Instr.index] at hi
  case ldVxDt | ldDtVx | ldStVx => rfl
  all_goals
    exact exec_mapAside (fun a => { a with keys := keys, freeze := s.freeze }) s (by simp [Instr.index])
      fun hkey => absurd hkey hi

end Sys2Proof.Machine
end

section
/-!
PROOFS. The statements about the keys, settled (spec/10_state.md R30; spec/45_keys_timers.md R220 to R224).
-/

open Sys2Proof Sys2Proof.Machine

/-- Settles O44: the key of the value of Vx is there below 16, and else `faultRaised` names the fault. -/
theorem keySkipsTestTheKeyOfTheirValue : Obligations.KeySkipsTestTheKeyOfTheirValue := by
  refine fun x s => ⟨fun k hk => ?_, fun hx => ⟨exec_eq_fault_iff.mpr (if_pos hx), exec_eq_fault_iff.mpr (if_pos hx)⟩⟩
  have hkey : s.key? (s.reg x).toNat = some s.keys[k] := State.key?_of_eq hk
  refine ⟨⟨_, exec_skp_of_key hkey, s.skipIf_pc _, Frame.skipIf s _⟩,
    ⟨_, exec_sknp_of_key hkey, ?_, Frame.skipIf s _⟩⟩
  rw [State.skipIf_pc]
  cases s.keys[k] <;> rfl

/-- Settles O45: the two answers of LD Vx, K, and the draw of a pressed slot. -/
theorem ldKeyWaitsOrReportsAPressedSlot : Obligations.LdKeyWaitsOrReportsAPressedSlot := by
  intro x s
  refine ⟨fun hnone => ?_, fun ⟨k, hk⟩ => ?_, fun k hk => ?_⟩
  · rcases execLdVxK_cases x s with ⟨_, hwait⟩ | ⟨slot, hslot, _⟩
    · exact ⟨_, hwait, rfl, Frame.setPc s _⟩
    · exact absurd hslot (by simp [hnone slot])
  · rcases execLdVxK_cases x s with ⟨hnone, _⟩ | ⟨slot, hslot, hreport⟩
    · exact absurd hk (by simp [hnone k])
    · refine ⟨_, hreport, ⟨slot, hslot, ?_⟩, Frame.setReg s x _⟩
      rw [State.reg_setReg_same]
      exact toList_keyMap_getElem? slot
  · refine ⟨⟨0, 0x00#8, k⟩, _, exec_ldVxK_of_drawn x rfl hk, ?_⟩
    rw [State.reg_setReg_same]
    exact toList_keyMap_getElem? k

/-- Settles O46: the keys stand aside of every other execute phase (`exec_setKeys`). -/
theorem onlyKeyInstructionsReadTheKeys : Obligations.OnlyKeyInstructionsReadTheKeys :=
  fun _ s keys hi => exec_setKeys s hi keys

end

section
/-!
SUPPORT. The values of I, and block transfers as reads and writes of memory (spec/46_index_memory.md R240 to R247).
-/

namespace Sys2Proof.Machine

variable {s t : State}

theorem addToI_toNat (a : Word) (b : Byte) : (addToI a b).toNat = (a.toNat + b.toNat) % 65536 := by
  rw [addToI, BitVec.toNat_add, BitVec.toNat_setWidth_of_le (by decide)]

/-- The glyph of a byte lies within 16 bits, so its address is not cut (R244). -/
theorem glyphAddress_toNat (b : Byte) : (glyphAddress b).toNat = 5 * b.toNat := by
  have hb : b.toNat < 256 := b.isLt
  exact (BitVec.toNat_ofNat _ _).trans (Nat.mod_eq_of_lt (by rw [Config.glyphBytes]; omega))

theorem exec_ldB (x : Reg) (s : State) :
    exec (.ldB x) s = guardAccess s.i.toNat 3 (s.writeBytes s.i.toNat (bcdDigits (s.reg x))) := rfl

theorem exec_ldMemVx (x : Reg) (s : State) :
    exec (.ldMemVx x) s = guardAccess s.i.toNat (x.val + 1) (s.writeBytes s.i.toNat (s.regsThrough x)) := rfl

theorem exec_ldVxMem (x : Reg) (s : State) :
    exec (.ldVxMem x) s = guardAccess s.i.toNat (x.val + 1) (s.setRegs (s.regsLoaded x)) := rfl

/-- LD [I], Vx stores Vk at I + k (R246). -/
theorem State.readByte_writeBytes_regsThrough (s : State) {x k : Reg} (a : Nat) (hk : k ≤ x) :
    (s.writeBytes a (s.regsThrough x)).readByte (a + k.val) = s.reg k := by
  have hlen : k.val < (s.regsThrough x).length := by
    rw [length_regsThrough]
    exact Nat.lt_succ_of_le hk
  rw [State.readByte_writeBytes_add s hlen]
  simp [State.regsThrough, State.reg]

end Sys2Proof.Machine
end

section
/-!
PROOFS. The statements about the index register and block transfer, settled (spec/46_index_memory.md R240 to R247).
-/

open Sys2Proof Sys2Proof.Machine

/-- Settles O49: each is one write of I. -/
theorem indexInstructionsWriteOnlyI : Obligations.IndexInstructionsWriteOnlyI :=
  ⟨fun nnn s => ⟨_, rfl, zext_toNat nnn, Frame.setI s _⟩,
    fun x s => ⟨_, rfl, addToI_toNat s.i (s.reg x), Frame.setI s _⟩,
    fun x s => ⟨_, rfl, glyphAddress_toNat (s.reg x), Frame.setI s _⟩⟩

/-- Settles O51: the three digits, written at I and upwards; the fault is that of the access check. -/
theorem ldBStoresTheDigits : Obligations.LdBStoresTheDigits := by
  refine fun x s => ⟨fun hin => ?_, fun hout => exec_eq_fault_iff.mpr (accessFault_of_outside (by decide) (by omega))⟩
  have hexec : exec (.ldB x) s = .next (s.writeBytes s.i.toNat (bcdDigits (s.reg x))) := by
    rw [exec_ldB, guardAccess_of_inside (.inr (by omega))]
  refine ⟨_, hexec, ?_, ?_, ?_, exec_frame hexec⟩
  all_goals
    obtain ⟨hundreds, tens, ones, hdigits, hh, ht, ho⟩ := bcdDigits_toNat (s.reg x)
    rw [hdigits]
  · rw [← hh]
    exact congrArg BitVec.toNat (State.readByte_writeBytes_add s (k := 0) (by simp))
  · rw [← ht]
    exact congrArg BitVec.toNat (State.readByte_writeBytes_add s (k := 1) (by simp))
  · rw [← ho]
    exact congrArg BitVec.toNat (State.readByte_writeBytes_add s (k := 2) (by simp))

/-- Settles O52: V0 to Vx, written at I and upwards; the fault is that of the access check. -/
theorem ldMemStoresTheRegisters : Obligations.LdMemStoresTheRegisters := by
  refine fun x s => ⟨fun hin => ?_, fun hout => exec_eq_fault_iff.mpr (accessFault_of_outside (by omega) (by omega))⟩
  have hexec : exec (.ldMemVx x) s = .next (s.writeBytes s.i.toNat (s.regsThrough x)) := by
    rw [exec_ldMemVx, guardAccess_of_inside (.inr (by omega))]
  exact ⟨_, hexec, fun k hk => s.readByte_writeBytes_regsThrough _ hk, exec_frame hexec⟩

/-- Settles O53: V0 to Vx, read at I and upwards; the fault is that of the access check. -/
theorem ldRegistersLoadsFromMemory : Obligations.LdRegistersLoadsFromMemory := by
  refine fun x s => ⟨fun hin => ?_, fun hout => exec_eq_fault_iff.mpr (accessFault_of_outside (by omega) (by omega))⟩
  have hexec : exec (.ldVxMem x) s = .next (s.setRegs (s.regsLoaded x)) := by
    rw [exec_ldVxMem, guardAccess_of_inside (.inr (by omega))]
  exact ⟨_, hexec, fun k hk => (s.reg_regsLoaded x k).trans (if_pos hk), exec_frame hexec⟩

/-- Settles O54: the store leaves I (`exec_frame`), so the load reads the bytes that it wrote. -/
theorem storedRegistersLoadBack : Obligations.StoredRegistersLoadBack := by
  intro x s t v hstore
  have hi : t.i = s.i := (exec_frame hstore).i rfl
  obtain ⟨rfl, hin⟩ := guardAccess_next hstore
  have hload := exec_ldVxMem x ((s.writeBytes s.i.toNat (s.regsThrough x)).setRegs v)
  rw [guardAccess_of_inside (by rw [State.setRegs_i, hi]; exact hin)] at hload
  refine ⟨_, hload, fun k hk => ?_, fun k hk => ?_⟩ <;> rw [State.reg_regsLoaded]
  · rw [if_pos hk, State.setRegs_i, hi]
    exact s.readByte_writeBytes_regsThrough _ hk
  · rw [if_neg (not_le.mpr hk)]
    rfl

end

section
/-!
SUPPORT. The end of a run: a self jump, the steps after it, and a run through zeroed memory
(spec/40_dispatch_and_cycle.md R127; spec/70_reset_and_hazards.md R299, R308).
-/

namespace Sys2Proof.Machine

variable {s t : State} {w : Word}

/-! ## A self jump (R127) -/

/-- The recorded pair of a word is that of JP nnn exactly for the words of JP nnn. -/
theorem decodePair_jp_iff {a : Nat} : (decodePair w).1 = 3 ∧ (decodePair w).2.toNat = a ↔
    ∃ nnn, decodeWord w = .jp nnn ∧ nnn.toNat = a := by
  cases hknown : decodeKnown w with
  | none => simp [decodePair_of_unknown hknown, decodeWord_of_unknown hknown]
  | some i =>
    have henc := encodeWord_of_decodeKnown hknown
    rw [decodePair_of_known hknown, (decodeWord_of_known hknown).1]
    cases i
    case jp nnn =>
      obtain rfl : wordNnn 0x1#4 nnn = w := henc
      simp [Instr.index]
    all_goals simp [Instr.index]

theorem step_loopOutput_iff (h : step s = .next t) : t.loopOutput = true ↔
    ∃ nnn, decodeWord (s.fetch16 s.pc.toNat) = .jp nnn ∧ nnn.toNat = s.pc.toNat := by
  obtain ⟨_, _, u, hu, rfl⟩ := step_next h
  have hkept := exec_keeps hu
  rw [State.endStep_loopOutput, hkept.decOp, hkept.decOperand, State.beginStep_decOp, State.beginStep_decOperand]
  exact decodePair_jp_iff

/-- A step that goes on leaves no fault. -/
theorem step_next_fault (h : step s = .next t) : t.fault = none := (step_frame h).fault.trans (step_next h).1

/-- A self jump leaves PC and the memory that it was fetched from, so the next step fetches it again. -/
theorem fetches_of_selfJump (h : step s = .next t) (hloop : t.loopOutput = true) :
    t.pc = s.pc ∧ t.fetches (s.fetch16 s.pc.toNat) := by
  obtain ⟨nnn, hi, hself⟩ := (step_loopOutput_iff h).mp hloop
  have hpc : t.pc = s.pc := by
    rw [step_pc_of_jump h hi (exec_jp nnn _)]
    exact BitVec.eq_of_toNat_eq ((zext_toNat nnn).trans hself)
  have hframe := step_frame h
  rw [hi] at hframe
  have hmem (a : Nat) : t.readByte a = s.readByte a := hframe.mem a (by simp [changesOf])
  have hlt : s.pc.toNat + 1 < 4096 := (step_next h).2.1
  refine ⟨hpc, step_next_fault h, by rw [hpc]; exact hlt, ?_, ?_⟩
  · rw [hpc, hmem]
    exact (highByte_wordOfBytes _ _).symm
  · rw [hpc, hmem]
    exact (lowByte_wordOfBytes _ _).symm

/-- A state whose record is of the word at its PC, recorded again, stays as it is. -/
theorem State.record_again (hpair : decodePair w = (t.decOp, t.decOperand)) (hprev : t.prevPc = t.pc) :
    (t.setDecoded (decodePair w)).setPrevPc t.pc = t := by
  rw [hpair, ← hprev]
  rfl

/-- The step after a self jump is the same jump, and changes only the timers (R308). -/
theorem step_of_selfJump (h : step s = .next t) (hloop : t.loopOutput = true) :
    ∃ u, step t = .next u ∧ u.loopOutput = true ∧ u.dt.toNat = t.dtDecayed ∧ u.st.toNat = t.stDecayed ∧
      Frame { dt := true, st := true } t.dropDraw u := by
  obtain ⟨nnn, hi, hself⟩ := (step_loopOutput_iff h).mp hloop
  obtain ⟨hpc, hw⟩ := fetches_of_selfJump h hloop
  have hu := step_of_exec hw hi (exec_jp nnn _)
  have hframe := step_frame hu
  have hrecord := step_frame h
  rw [State.fetch16_of_fetches hw, hi, State.record_again
    (Prod.ext hrecord.decOp.symm hrecord.decOperand.symm) (hrecord.prevPc.trans hpc.symm)] at hframe
  have hstay : (((t.beginStep (s.fetch16 s.pc.toNat)).jump (zext nnn)).endStep t.pc).pc = t.pc := by
    rw [State.endStep_jump_pc, hpc]
    exact BitVec.eq_of_toNat_eq ((zext_toNat nnn).trans hself)
  refine ⟨_, hu, (step_loopOutput_iff hu).mpr ⟨nnn, ?_, ?_⟩, State.dtDecayed_eq t (s.fetch16 s.pc.toNat),
    State.stDecayed_eq t (s.fetch16 s.pc.toNat),
    { hframe with pc := fun _ => hstay, dt := nofun, st := nofun }⟩
  · rw [State.fetch16_of_fetches hw, hi]
  · rw [hpc, hself]

/-! ## Runs -/

theorem State.steps_succ_last {n : Nat} (h : (State.steps n s).fault = none) :
    State.steps (n + 1) s = (State.steps n s).afterStep := by
  rw [State.steps_add, State.steps_succ h, State.steps_zero]

/-- A run of at least one step that has met no fault got to its last state by a step. -/
theorem exists_step_of_steps {n : Nat} (hn : 1 ≤ n) (h : (State.steps n s).fault = none) :
    ∃ s', step s' = .next (State.steps n s) := by
  obtain ⟨m, rfl⟩ : ∃ m, n = m + 1 := ⟨n - 1, by omega⟩
  cases hfault : (State.steps m s).fault with
  | some r =>
    rw [State.steps_add, State.steps_of_fault hfault, hfault] at h
    cases h
  | none =>
    rw [State.steps_succ_last hfault] at h ⊢
    cases hstep : step (State.steps m s) with
    | next t => exact ⟨_, by rw [hstep, State.afterStep_of_next hstep]⟩
    | fault r => rw [State.afterStep_of_fault hstep] at h; cases h
    | refused r => exact absurd hstep (step_ne_refused _ _)

/-- `u` is `t`, or a later state of a run that has ended at `t`: a step has left it at the same self jump, with the
same registers, memory and screen (R308). -/
structure StaysEnded (t u : State) : Prop where
  left : ∃ s, step s = .next u
  loop : u.loopOutput = true
  pc : u.pc = t.pc
  regs : ∀ x, u.reg x = t.reg x
  mem : ∀ a, u.readByte a = t.readByte a
  screen : ∀ j, u.cell j = t.cell j

theorem StaysEnded.refl (h : step s = .next t) (hloop : t.loopOutput = true) : StaysEnded t t :=
  ⟨⟨s, h⟩, hloop, rfl, fun _ => rfl, fun _ => rfl, fun _ => rfl⟩

theorem StaysEnded.fault {u : State} (h : StaysEnded t u) : u.fault = none :=
  h.left.elim fun _ hs => step_next_fault hs

theorem StaysEnded.afterStep {u : State} (h : StaysEnded t u) : StaysEnded t u.afterStep := by
  obtain ⟨s, hs⟩ := h.left
  obtain ⟨v, hv, hloop, _, _, hframe⟩ := step_of_selfJump hs h.loop
  rw [State.afterStep_of_next hv]
  exact
    { left := ⟨u, hv⟩
      loop := hloop
      pc := (hframe.pc rfl).trans h.pc
      regs := fun x => (hframe.regs x List.not_mem_nil).trans (h.regs x)
      mem := fun a => (hframe.mem a (by simp)).trans (h.mem a)
      screen := fun j => (hframe.screen rfl j).trans (h.screen j) }

theorem StaysEnded.steps (h : StaysEnded t t) (n : Nat) : StaysEnded t (State.steps n t) := by
  induction n with
  | zero => exact h
  | succ n ih =>
    rw [State.steps_succ_last ih.fault]
    exact ih.afterStep

/-! ## Zeroed memory (R299) -/

/-- A step at a zero word only advances PC, as SYS 0. -/
theorem afterStep_of_zeroWord (hw : s.fetches 0x0000#16) :
    s.afterStep.fault = none ∧ s.afterStep.pc = s.pc + 2 ∧ (∀ x, s.afterStep.reg x = s.reg x) ∧
      ∀ a, s.afterStep.readByte a = s.readByte a := by
  have hsys : decodeWord 0x0000#16 = .sys 0 := rfl
  have hstep : step s = .next ((s.beginStep 0x0000#16).endStep s.pc) := step_of_exec hw hsys rfl
  have hframe := step_frame hstep
  rw [State.fetch16_of_fetches hw, hsys] at hframe
  rw [State.afterStep_of_next hstep]
  refine ⟨step_next_fault hstep, ?_, fun x => hframe.regs x List.not_mem_nil,
    fun a => hframe.mem a (by simp [changesOf])⟩
  rw [State.endStep_pc, State.beginStep_pc]

/-- The first `k` steps through zeroed memory from 0x200. -/
theorem steps_through_zeros (hfault : s.fault = none) (hpc : s.pc = 0x200#16)
    (hzero : ∀ a, 0x200 ≤ a → a < 4096 → s.readByte a = 0x00#8) {k : Nat} (hk : k ≤ 1792) :
    (State.steps k s).fault = none ∧ (State.steps k s).pc.toNat = 0x200 + 2 * k ∧
      (∀ x, (State.steps k s).reg x = s.reg x) ∧ ∀ a, (State.steps k s).readByte a = s.readByte a := by
  induction k with
  | zero => exact ⟨hfault, by rw [State.steps_zero, hpc]; rfl, fun _ => rfl, fun _ => rfl⟩
  | succ k ih =>
    obtain ⟨hf, hp, hregs, hmem⟩ := ih (by omega)
    have hw : (State.steps k s).fetches 0x0000#16 := by
      refine ⟨hf, by omega, ?_, ?_⟩ <;> rw [hmem, hzero _ (by omega) (by omega)] <;> rfl
    obtain ⟨hf', hp', hregs', hmem'⟩ := afterStep_of_zeroWord hw
    rw [State.steps_succ_last hf]
    refine ⟨hf', ?_, fun x => (hregs' x).trans (hregs x), fun a => (hmem' a).trans (hmem a)⟩
    rw [hp', BitVec.toNat_add, hp]
    simp
    omega

end Sys2Proof.Machine
end

section
/-!
PROOFS. The statements about the end of a run, settled (spec/40_dispatch_and_cycle.md R127;
spec/70_reset_and_hazards.md R299, R308).
-/

open Sys2Proof Sys2Proof.Machine

/-- Settles O55: the loop output reads the record of the step, which is of JP nnn exactly when the word is. -/
theorem loopOutputMarksASelfJump : Obligations.LoopOutputMarksASelfJump :=
  fun _ _ h => step_loopOutput_iff h

/-- Settles O56: a self jump is fetched and run again (`step_of_selfJump`). -/
theorem endedRunChangesOnlyTheTimers : Obligations.EndedRunChangesOnlyTheTimers :=
  fun _ _ h hloop => step_of_selfJump h hloop

/-- Settles O57: an ended run got to its state by a step, and every further step keeps `StaysEnded`. -/
theorem endedRunStaysEnded : Obligations.EndedRunStaysEnded := by
  intro s n m hn hnm hended
  obtain ⟨hfault, hloop⟩ := hended
  obtain ⟨s', hs'⟩ := exists_step_of_steps hn hfault
  have hstays := (StaysEnded.refl hs' hloop).steps (m - n)
  rw [← State.steps_add, Nat.add_sub_cancel' hnm] at hstays
  exact ⟨hstays.fault, ⟨hstays.fault, hstays.loop⟩, hstays.pc, hstays.regs, hstays.mem, hstays.screen⟩

/-- Settles O58: 1792 steps by `steps_through_zeros`, and then the fetch at 0x1000 leaves memory. -/
theorem zeroedMemoryRunsToTheEnd : Obligations.ZeroedMemoryRunsToTheEnd := by
  intro s hfault hpc hzero
  refine ⟨fun k hk => ?_, ?_⟩
  · obtain ⟨hf, hp, hregs, _⟩ := steps_through_zeros hfault hpc hzero hk
    exact ⟨hf, hp, hregs⟩
  · obtain ⟨hf, hp, _, _⟩ := steps_through_zeros hfault hpc hzero (k := 1792) le_rfl
    have hstep := step_of_not_fetchable hf (by omega)
    rw [hp] at hstep
    rw [State.steps_succ_last hf, State.afterStep_of_fault hstep]
    rfl

end

section
/-!
PROOFS. The statements about reset and the ports, settled (spec/10_state.md section 9; spec/40_dispatch_and_cycle.md
R125; spec/60_exceptions.md R282, R284).
-/

open Sys2Proof Sys2Proof.Machine

/-- Settles O3: init is written out field by field; memory after it by the lemmas of R290. -/
theorem initDoesNotDependOnTheStateBefore : Obligations.InitDoesNotDependOnTheStateBefore :=
  ⟨fun _ => rfl, rfl, fun s => ⟨s.readByte_init_font, fun _ ha => s.readByte_init_of_le ha, rfl, rfl, rfl, rfl, rfl⟩⟩

/-- Settles O1: reset is its own init, so its memory is that of init; the other fields are written out. -/
theorem resetHoldsTheStatedValues : Obligations.ResetHoldsTheStatedValues := by
  refine ⟨fun x => Vector.getElem_replicate _, rfl, rfl, rfl, fun k hk => ?_, rfl, rfl, fun a => ?_, fun a ha => ?_,
    fun j => rfl, rfl, rfl, rfl, rfl, rfl, rfl, rfl⟩
  · rw [State.slot?_of_lt _ hk]
    exact congrArg some (Vector.getElem_replicate _)
  · exact State.reset.readByte_init_font a
  · exact State.reset.readByte_init_of_le ha

/-- Settles O59: each query tests its range. -/
theorem portQueriesAnswerInsideTheirRange : Obligations.PortQueriesAnswerInsideTheirRange := by
  refine ⟨fun s x y hx hy => if_pos ⟨hx, hy⟩, fun s x y hout => if_neg ?_,
    fun s a ha => State.getInstructionAt_of_le ha, fun s a ha => if_neg (by omega)⟩
  rintro ⟨hx, hy⟩
  rw [Config.screenW] at hx
  rw [Config.screenH] at hy
  omega

/-- Settles O60: each kind of write is one update of the state, with its read back and its frame. -/
theorem debugWritesReadBackAndNothingElseChanges : Obligations.DebugWritesReadBackAndNothingElseChanges := by
  intro s
  refine ⟨fun x b => ⟨?_, Frame.setReg s x b⟩, fun a => ⟨rfl, Frame.setI s a⟩, fun a => ⟨rfl, Frame.setPc s a⟩,
    fun b => ⟨rfl, Frame.setSp s b⟩, fun b => ⟨rfl, Frame.setDt s b⟩, fun b => ⟨rfl, Frame.setSt s b⟩,
    fun a b => ⟨?_, Frame.writeBytes s a.val [b]⟩, fun k a => ⟨?_, Frame.setSlot s k.val a⟩,
    fun j b => ⟨?_, fun j' hj => ?_, Frame.setScreen s _⟩⟩
  · exact congrArg BitVec.toNat (s.reg_setReg_same x b)
  · exact congrArg BitVec.toNat ((s.readByte_writeByte a a b).trans (if_pos rfl))
  · exact congrArg BitVec.toNat (Vector.getElem_setIfInBounds_self _)
  · exact congrArg BitVec.toNat ((Screen.read_write s.screen j j b).trans (if_pos rfl))
  · exact (Screen.read_write s.screen j j' b).trans (if_neg hj)

end
